-- ==== Sys2Proof/Word.lean ====
section
/-! DEFINITION. The word types of the DX880 (R4, R5, R15, R70) and nothing else. -/

namespace Sys2Proof

/-- One byte of any address space (R5). -/
abbrev Byte := BitVec 8
/-- A packed 16-bit element (R70). -/
abbrev W16 := BitVec 16
/-- A 32-bit lane, slot or word (R26, R70). -/
abbrev W32 := BitVec 32
/-- A scalar register or system register (R92, R409). -/
abbrev W64 := BitVec 64
/-- A vector register: 64 lanes of 32 bits, lane 0 lowest, so that element j of width w is bits
`[w*j + w - 1 : w*j]` (R5, R15, R70). It is also one vector word of a link FIFO (R30). -/
abbrev VWord := BitVec 2048
/-- The 64 lane bits of a predicate, or a set of lanes (R93). -/
abbrev LaneMask := BitVec 64
/-- The six sticky flags of one lane, `[5]` SAT, `[4]` NX, `[3]` UF, `[2]` OF, `[1]` DZ, `[0]` NV (R120). -/
abbrev Flags6 := BitVec 6
/-- vsticky: lane i's six flags are bits `[6*i + 5 : 6*i]` (R120). -/
abbrev Sticky := BitVec 384

/-- The number of a scalar, vector or predicate register (R15). -/
abbrev Reg := Fin 32
/-- The number of a latch (R32). -/
abbrev LatchNo := Fin 8
/-- The number of a link and of its FIFO pair, in the order +x, -x, +y, -y, +z, -z (R13). -/
abbrev LinkNo := Fin 6

end Sys2Proof
end

