-- ==== Sys2Proof/Syntax.lean ====
section
/-! DEFINITION. The steps of the DX880: one constructor of `Instr` for each row of spec/opcode_table.json.
The first 220 stand for slots a program encodes; the others for the events of the package's units and
of the outside world, which have no encoding and reach the machine through `State.agenda`. -/

namespace Sys2Proof

/-- The element formats named by a 4-bit format code (R75); code 0xF is reserved and names none. -/
inductive Fmt where
  | fp32 | fp16 | bf16 | e4m3 | e5m2 | e2m1 | fp64
  | int32 | int16 | int8 | int4 | uint32 | uint16 | uint8 | sp2
deriving DecidableEq, Repr

/-- The three block-scaled formats (R72). -/
inductive BlockFmt where
  | bf8 | bfp4 | bi4
deriving DecidableEq, Repr

/-- The rounding modes of FMT.RM (R76, R77). -/
inductive RMode where
  | rne | rtz | rup | rdn | sto
deriving DecidableEq, Repr

/-- The mode field of `vrnd`: a mode of its own or FMT.RM (R86). -/
inductive RndSel where
  | mode (m : RMode)
  | current
deriving DecidableEq, Repr

/-- The operand codes of the A and B fields (R30). `ident` is code 0x2A: the core id in S, BA and C
slots and in scalar fields (R131), the lane index in a vector operand. -/
inductive Src where
  | reg (r : Reg)
  | latch (n : LatchNo)
  | zero
  | lit
  | ident
  | fifo (n : LinkNo)
  | one
  | mone
deriving DecidableEq, Repr

/-- The destinations of the D field (R29). -/
inductive Dst where
  | reg (r : Reg)
  | latch (n : LatchNo)
  | fifo (n : LinkNo)
deriving DecidableEq, Repr

/-- The ordering of an atomic (R28). -/
inductive AOrd where
  | rlx | acq | rel | acqrel
deriving DecidableEq, Repr

/-- The scopes of R188; atomics name the last four. -/
inductive Scope where
  | core | grove | pkg | torus | pool
deriving DecidableEq, Repr

/-- The scope field of an atomic (R28). -/
inductive AScope where
  | grove | pkg | torus | pool
deriving DecidableEq, Repr

/-- The operations of vred and vscan (R142). -/
inductive RedOp where
  | add | max | min
deriving DecidableEq, Repr

/-- The events of a channel (R328). -/
inductive ChEvent where
  | sr | lr | af
deriving DecidableEq, Repr

/-- The gang forms of `fuse` (R411, R416). -/
inductive GangForm where
  | w2 | w4 | t2
deriving DecidableEq, Repr

/-- The trap causes of R404. -/
inductive Cause where
  | illegal | bundleForm | latchInvalid | nonuniformBranch | format | priv | swtrap | address
  | misalign | bounds | tensor | access | unmapped | poolRegion | bufferFull | liveReduction
  | phaseBudget | barrier | copyPoison | residencyAbsent | staleResidency | tileOpen | katFail | quota
  | canopyFull | linkNone | linkLost | nodeUnreachable | connState | channel | staleGeneration
  | kvPos | kvFull | pmt | mapLost | mapState | mapFull | fuse | stream | groupAbort
  | uncontained | uncorrectable | doubleTrap
deriving DecidableEq, Repr

/-- A packet of the torus fabric, with the fields of the header flit of R287 that a receiver reads and
its payload bytes. `kind` is the KIND of R288. -/
structure Packet where
  kind : Nat
  cls : Nat
  ver : Bool
  vc : Bool
  dst : BitVec 12
  src : BitVec 12
  scid : BitVec 8
  dcid : BitVec 8
  cn : Fin 16
  epoch : BitVec 4
  seq : W32
  poff : Nat
  hops : Nat
  addr : Nat
  ctxid : W32
  aux : W64
  mark : Bool
  data : List Byte
deriving DecidableEq, Repr

/-- A partial of attention: m, l and the elements of o as binary32 bits, and the count of covered
positions (R345, R346). -/
structure Partial where
  m : W32
  l : W32
  o : List W32
  count : Nat
deriving DecidableEq, Repr

/-- One tier-miss entry of a query: the unit and its primary (R351). -/
structure Miss where
  unit : Nat
  pri : BitVec 12
deriving DecidableEq, Repr

/-- A query as a holder receives it (R352, R359), with the holder list over which its tree stands (R347). -/
structure Query where
  qid : Nat
  from_ : BitVec 12
  seqid : W32
  layer : Nat
  head : Nat
  lo : Nat
  hi : Nat
  scale : W32
  units : Option (List Nat)
  q : List W32
  arr : Bool
  gen : W16
  holders : List (BitVec 12)
deriving DecidableEq, Repr

/-- What a holder returns for a query: its folded partial, its misses and whether it answered STALE
(R347, R349, R351). -/
structure HolderReply where
  part : Partial
  misses : List Miss
  stale : Bool
deriving DecidableEq, Repr

/-- A flit that fails its check (R286, R296): its link, and whether it is a replay of the flit that failed before it. -/
structure FailedFlit where
  link : LinkNo
  replay : Bool
deriving DecidableEq, Repr

/-- The data of a remote reply (R304), and whether it is poisoned (R184). -/
structure ReplyData where
  bytes : List Byte
  poison : Bool
deriving DecidableEq, Repr

/-- What a reduce packet's message is (R317): its operation, its length, and whether it notifies. -/
structure RedMessage where
  op : Fin 16
  len : Nat
  nt : Bool
deriving DecidableEq, Repr

/-- The query that a partial belongs to (R347): the package that asked, and the query's number there. -/
structure QueryTag where
  from_ : BitVec 12
  qid : Nat
deriving DecidableEq, Repr

/-- A write of the position-map table by another member (R362): whether it removes the entry, the member, and the write's number
there. -/
structure MemberWrite where
  remove : Bool
  from_ : BitVec 12
  n : Nat
deriving DecidableEq, Repr

/-- Bytes with a public key and a signature (R424, R428). -/
structure SignedBytes where
  bytes : List Byte
  key : List Byte
  sig : BitVec 512
deriving DecidableEq, Repr

/-- An append as a holder receives it (R353, R360). -/
structure Append where
  aid : Nat
  from_ : BitVec 12
  seqid : W32
  pos : Nat
  layer : Nat
  nlay : Nat
  gen : W16
  primary : Bool
  data : List Byte
deriving DecidableEq, Repr

/-- A sequence entry of the position-map table (R340), with its holder list. -/
structure SeqEntry where
  seqid : W32
  gen : W16
  mir : Bool
  logt : Nat
  efmt : Fmt
  group : BitVec 8
  nl : Nat
  nh : Nat
  dh : Nat
  tailu : Nat
  tpri : Option (BitVec 12)
  tmir : Option (BitVec 12)
  holders : List (BitVec 12)
deriving DecidableEq, Repr

/-- A unit of which a rebalance makes a package the new mirror (R344, R350): what its primary's entry says. -/
structure NewMirror where
  unit : Nat
  pri : BitVec 12
  tier1 : Bool
  frame : Nat
  poolPa : Nat
  fill : Nat
deriving DecidableEq, Repr

/-- The rebalance step that the issuer sends to every member (R350): the lost node, the expected
generation, the highest unit with its holders after steps 2 and 3, and the units whose primaries name this member
as their new mirror. -/
structure RebalStep where
  from_ : BitVec 12
  seqid : W32
  lost : BitVec 12
  gen : W16
  tail : Option (Nat × Option (BitVec 12) × Option (BitVec 12))
  named : List NewMirror
deriving DecidableEq, Repr

/-- What the packages of a rebalance tell each other before its step (R350): the issuer asks under the expected generation, for the lost node;
a member answers with the highest unit of which it holds an entry, with PRI and MIR, or STALE; an issuer that fails lets the
members go on. -/
inductive RebalAsk where
  | ask (seqid : W32) (gen : W16) (from_ lost : BitVec 12)
  | answer (seqid : W32) (from_ : BitVec 12) (best : Option (Nat × BitVec 12 × Option (BitVec 12)))
  | stale (seqid : W32) (from_ : BitVec 12)
  | drop (seqid : W32) (from_ : BitVec 12)
deriving DecidableEq, Repr

/-- What the first packet of a collective operation says of its channel (R321): KIND, FMTC, OP, N and M. -/
structure CollHead where
  kind : Nat
  fmt : Nat
  op : Nat
  n : Nat
  m : Nat
deriving DecidableEq, Repr

/-- A message of a collective: the channel, the operation number, the sender's tree and direction, what its first packet
says where it is the first of the operation, and the elements it carries (R321, R324). `up` messages carry a subtree's value
from the child at `pos`. -/
structure CollPkt where
  chan : BitVec 8
  op : Nat
  treeB : Bool
  up : Bool
  pos : Nat
  head : Option CollHead
  data : List Byte
deriving DecidableEq, Repr

/-- A group-table record (R16, R396): the local cores and the remote packages with their member counts. -/
structure GroupRec where
  cores : BitVec 256
  remote : List (BitVec 12 × Nat)
deriving DecidableEq, Repr

/-- What the MMP finds when it services a translation fault (R161). -/
inductive MmpFind where
  | frame (pte : W64)
  | host (pte : W64)
  | pager
  | nothing
deriving DecidableEq, Repr

/-- The condition that stops a transfer of an engine (R221, R278). -/
inductive XferFault where
  | unmapped | access | poolRegion | poison
deriving DecidableEq, Repr

/-- An error of the array or the canopy (R281): a single-bit canopy error, which is corrected; an uncorrectable word of a
residency; a residue mismatch. -/
inductive ArrayError where
  | corrected
  | canopy (res : Fin 256)
  | residue
  /-- a byte of AS, or of CB, that can no longer be corrected (R184) -/
  | buffer (cb : Bool) (off : Nat)
deriving DecidableEq, Repr

/-- What compare mode found (R282, R283): the runs agree, or the failure is attributed to one unit of a
pair, or to anything else. -/
inductive CompareEnd where
  | agree
  | vectorUnit (u : Fin 2)
  | copyUnit (u : Fin 2)
  | other
deriving DecidableEq, Repr

/-- A request of the supervisor to the MMP service interface (R425). -/
inductive MmpService where
  | retrainLink (l : LinkNo)
  | retrainPool (p : Fin 2)
  | retrainHost
  | swapLane (stack : Fin 8) (lane : Fin 2048)
  /-- a lane of a link is swapped (R296) -/
  | swapLinkLane (l : LinkNo)
  | discardOrphans (p : Fin 2)
  /-- a pager is registered for a region of an address space: its environment, ring and launch word (R161, log 42) -/
  | registerPager (env : Nat) (asid : BitVec 12) (space : Fin 4) (lo hi : W64) (queue slots launch : Nat) (word : W64)
  | retireCore (c : BitVec 8)
  | quarantineCore (c : BitVec 8)
  /-- the pair of a core, vector units or copy engines, is narrowed to one unit -/
  | narrowCore (c : BitVec 8) (vector : Bool) (u : Fin 2)
  | retirePc (stack : Fin 8) (pc : Fin 64)
deriving DecidableEq, Repr

/-- The policies of an alarm in rising order (R427). -/
inductive Policy where
  | log | halt | erase
deriving DecidableEq, Repr

/-- What a boot meets (R424): whether each step's own work passes; for step 2 the firmware image (image B where the step
takes its alternative) with its signature, key and rollback counter (R428); the pseudo-channels (64 for each stack), stacks and
cores found failing, the lanes on which each link trains, the pool ports found failing; and what the boot sets: the alarms' policies (R427), NODEID,
EXT and EMERGBASE (R294, R410). The policies stand in a signed configuration, one byte for each alarm (log 62). -/
structure BootRun where
  pass : List Bool
  image : List Byte
  signature : BitVec 512
  key : List Byte
  counter : W32
  failedPcs : List Nat
  deadStacks : List (Fin 8)
  failing : List (BitVec 8)
  lanes : List Nat
  failedPorts : List (Fin 2)
  config : SignedBytes
  node : BitVec 12
  ext : BitVec 12
  emergbase : W64
deriving DecidableEq, Repr

/-- What the transfers of a 64-byte HBM word meet (R431 to R434): the lanes of its stack on which parity fails in each of its
next transfers; which 4-bit symbols its cells hold wrong, from now on; and whether the word is read now, or found so by the next
access that moves it. -/
structure HbmXfer where
  pa : Nat
  parity : List (List Nat)
  badSymbols : List Nat
  now : Bool
deriving DecidableEq, Repr

/-- One step of the device: a slot of a program (R54) or an event of a unit or of the outside world. -/
inductive Instr where
  /-- R104 -/
  | add (g : Fin 16) (d : Dst) (a b : Src)
  /-- R104 -/
  | sub (g : Fin 16) (d : Dst) (a b : Src)
  /-- R104 -/
  | mul (g : Fin 16) (d : Dst) (a b : Src)
  /-- R104 -/
  | mulh (g : Fin 16) (d : Dst) (a b : Src)
  /-- R104 -/
  | mulhu (g : Fin 16) (d : Dst) (a b : Src)
  /-- R104 -/
  | div (g : Fin 16) (d : Dst) (a b : Src)
  /-- R104 -/
  | divu (g : Fin 16) (d : Dst) (a b : Src)
  /-- R104 -/
  | rem (g : Fin 16) (d : Dst) (a b : Src)
  /-- R104 -/
  | remu (g : Fin 16) (d : Dst) (a b : Src)
  /-- R104 -/
  | and (g : Fin 16) (d : Dst) (a b : Src)
  /-- R104 -/
  | or (g : Fin 16) (d : Dst) (a b : Src)
  /-- R104 -/
  | xor (g : Fin 16) (d : Dst) (a b : Src)
  /-- R104 -/
  | andn (g : Fin 16) (d : Dst) (a b : Src)
  /-- R104 -/
  | shl (g : Fin 16) (d : Dst) (a b : Src)
  /-- R104 -/
  | shr (g : Fin 16) (d : Dst) (a b : Src)
  /-- R104 -/
  | sar (g : Fin 16) (d : Dst) (a b : Src)
  /-- R104 -/
  | rotl (g : Fin 16) (d : Dst) (a b : Src)
  /-- R104 -/
  | min (g : Fin 16) (d : Dst) (a b : Src)
  /-- R104 -/
  | max (g : Fin 16) (d : Dst) (a b : Src)
  /-- R104 -/
  | minu (g : Fin 16) (d : Dst) (a b : Src)
  /-- R104 -/
  | maxu (g : Fin 16) (d : Dst) (a b : Src)
  /-- R104 -/
  | addsat (g : Fin 16) (d : Dst) (a b : Src)
  /-- R105 -/
  | clz (g : Fin 16) (d : Dst) (a : Src)
  /-- R105 -/
  | ctz (g : Fin 16) (d : Dst) (a : Src)
  /-- R105 -/
  | popc (g : Fin 16) (d : Dst) (a : Src)
  /-- R106 -/
  | bfx (g : Fin 16) (d : Dst) (a b : Src)
  /-- R106 -/
  | bfi (g : Fin 16) (d : Reg) (a b : Src)
  /-- R106 -/
  | sext (g : Fin 16) (d : Dst) (a b : Src)
  /-- R107 -/
  | ceq (g : Fin 16) (p : Reg) (a b : Src)
  /-- R107 -/
  | cne (g : Fin 16) (p : Reg) (a b : Src)
  /-- R107 -/
  | clt (g : Fin 16) (p : Reg) (a b : Src)
  /-- R107 -/
  | cltu (g : Fin 16) (p : Reg) (a b : Src)
  /-- R107 -/
  | cle (g : Fin 16) (p : Reg) (a b : Src)
  /-- R107 -/
  | cleu (g : Fin 16) (p : Reg) (a b : Src)
  /-- R108 -/
  | sel (p : Fin 16) (d : Dst) (a b : Src)
  /-- R109 -/
  | mov (g : Fin 16) (d : Dst) (a : Src)
  /-- R166 -/
  | ldb (g : Fin 16) (d : Dst) (a b : Src)
  /-- R166 -/
  | ldh (g : Fin 16) (d : Dst) (a b : Src)
  /-- R166 -/
  | ldw (g : Fin 16) (d : Dst) (a b : Src)
  /-- R166 -/
  | ldd (g : Fin 16) (d : Dst) (a b : Src)
  /-- R167 -/
  | stb (g : Fin 16) (d : Reg) (a b : Src)
  /-- R167 -/
  | sth (g : Fin 16) (d : Reg) (a b : Src)
  /-- R167 -/
  | stw (g : Fin 16) (d : Reg) (a b : Src)
  /-- R167 -/
  | std (g : Fin 16) (d : Reg) (a b : Src)
  /-- R168 -/
  | ldc (g : Fin 16) (d : Dst) (a b : Src)
  /-- R169 -/
  | ldro (g : Fin 16) (d : Dst) (a b : Src)
  /-- R170 -/
  | ldpm (g : Fin 16) (d : Dst) (a b : Src)
  /-- R170 -/
  | stpm (g : Fin 16) (d : Reg) (a b : Src)
  /-- R203 -/
  | atomAdd (o : AOrd) (sc : AScope) (d : Dst) (a b : Src)
  /-- R203 -/
  | atomMin (o : AOrd) (sc : AScope) (d : Dst) (a b : Src)
  /-- R203 -/
  | atomMax (o : AOrd) (sc : AScope) (d : Dst) (a b : Src)
  /-- R203 -/
  | atomAnd (o : AOrd) (sc : AScope) (d : Dst) (a b : Src)
  /-- R203 -/
  | atomOr (o : AOrd) (sc : AScope) (d : Dst) (a b : Src)
  /-- R203 -/
  | atomXor (o : AOrd) (sc : AScope) (d : Dst) (a b : Src)
  /-- R203 -/
  | atomXchg (o : AOrd) (sc : AScope) (d : Dst) (a b : Src)
  /-- R203 -/
  | atomCas (o : AOrd) (sc : AScope) (d : Reg) (a b : Src)
  /-- R419 -/
  | sysRd (g : Fin 16) (d : Dst) (a : Src)
  /-- R419 -/
  | sysWr (g : Fin 16) (a b : Src)
  /-- R419 -/
  | timeRd (g : Fin 16) (d : Dst) (m : Bool)
  /-- R171 -/
  | roinv (g : Fin 16)
  /-- R172 -/
  | tlbInv (g : Fin 16) (a b : Src)
  /-- R262 -/
  | mset (g : Fin 16) (n : Fin 8) (a : Src)
  /-- R262 -/
  | msetMxstat (g : Fin 16) (a : Src)
  /-- R262 -/
  | mget (g : Fin 16) (d : Dst) (n : Fin 8)
  /-- R262 -/
  | mgetMxstat (g : Fin 16) (d : Dst)
  /-- R132 -/
  | vadd (g : Fin 8) (q : Bool) (d : Dst) (a b : Src)
  /-- R132 -/
  | vsub (g : Fin 8) (q : Bool) (d : Dst) (a b : Src)
  /-- R132 -/
  | vmul (g : Fin 8) (q : Bool) (d : Dst) (a b : Src)
  /-- R133 -/
  | vfma (g : Fin 8) (q : Bool) (d : Reg) (a b : Src)
  /-- R133 -/
  | vfms (g : Fin 8) (q : Bool) (d : Reg) (a b : Src)
  /-- R133 -/
  | vfnma (g : Fin 8) (q : Bool) (d : Reg) (a b : Src)
  /-- R132 -/
  | vmin (g : Fin 8) (q : Bool) (d : Dst) (a b : Src)
  /-- R132 -/
  | vmax (g : Fin 8) (q : Bool) (d : Dst) (a b : Src)
  /-- R134 -/
  | vabs (g : Fin 8) (q : Bool) (d : Dst) (a : Src)
  /-- R134 -/
  | vneg (g : Fin 8) (q : Bool) (d : Dst) (a : Src)
  /-- R132 -/
  | vdiv (g : Fin 8) (q : Bool) (d : Dst) (a b : Src)
  /-- R134 -/
  | vsqrt (g : Fin 8) (q : Bool) (d : Dst) (a : Src)
  /-- R135 -/
  | vrcp (g : Fin 8) (q : Bool) (d : Dst) (a : Src)
  /-- R135 -/
  | vrsqrt (g : Fin 8) (q : Bool) (d : Dst) (a : Src)
  /-- R135 -/
  | vexp2 (g : Fin 8) (q : Bool) (d : Dst) (a : Src)
  /-- R135 -/
  | vlog2 (g : Fin 8) (q : Bool) (d : Dst) (a : Src)
  /-- R136 -/
  | vand (g : Fin 8) (q : Bool) (d : Dst) (a b : Src)
  /-- R136 -/
  | vor (g : Fin 8) (q : Bool) (d : Dst) (a b : Src)
  /-- R136 -/
  | vxor (g : Fin 8) (q : Bool) (d : Dst) (a b : Src)
  /-- R136 -/
  | vshl (g : Fin 8) (q : Bool) (d : Dst) (a b : Src)
  /-- R136 -/
  | vshr (g : Fin 8) (q : Bool) (d : Dst) (a b : Src)
  /-- R136 -/
  | vsar (g : Fin 8) (q : Bool) (d : Dst) (a b : Src)
  /-- R136 -/
  | vmulh (g : Fin 8) (q : Bool) (d : Dst) (a b : Src)
  /-- R137 -/
  | vdot4 (g : Fin 8) (q : Bool) (d : Reg) (a b : Src)
  /-- R138 -/
  | vceq (g : Fin 8) (q : Bool) (p : Reg) (a b : Src)
  /-- R138 -/
  | vcne (g : Fin 8) (q : Bool) (p : Reg) (a b : Src)
  /-- R138 -/
  | vclt (g : Fin 8) (q : Bool) (p : Reg) (a b : Src)
  /-- R138 -/
  | vcle (g : Fin 8) (q : Bool) (p : Reg) (a b : Src)
  /-- R138 -/
  | vcun (g : Fin 8) (q : Bool) (p : Reg) (a b : Src)
  /-- R139 -/
  | vsel (p : Fin 8) (d : Dst) (a b : Src)
  /-- R134 -/
  | vmov (g : Fin 8) (q : Bool) (d : Dst) (a : Src)
  /-- R140 -/
  | vbcast (g : Fin 8) (q : Bool) (d : Dst) (a : Src)
  /-- R140 -/
  | vext (g : Fin 8) (q : Bool) (d : Dst) (a b : Src)
  /-- R140 -/
  | vins (g : Fin 8) (q : Bool) (d : Reg) (a b : Src)
  /-- R141 -/
  | vperm (g : Fin 8) (q : Bool) (d : Dst) (a b : Src)
  /-- R141 -/
  | vrot (g : Fin 8) (q : Bool) (d : Dst) (a b : Src)
  /-- R142 -/
  | vred (g : Fin 8) (q : Bool) (d : Dst) (a : Src) (op : RedOp)
  /-- R142 -/
  | vscan (g : Fin 8) (q : Bool) (d : Dst) (a : Src) (op : RedOp)
  /-- R143 -/
  | vsticky (g : Fin 8) (q : Bool) (d : Dst)
  /-- R143 -/
  | vstclr (g : Fin 8) (q : Bool) (mask : Flags6)
  /-- R83 -/
  | vcvt (g : Fin 8) (q : Bool) (d : Dst) (a : Src) (h : Fin 4) (t : Fmt)
  /-- R84, R85 -/
  | vqnt (q : Bool) (d : Dst) (a : Src) (t : BlockFmt)
  /-- R84, R85 -/
  | vdqn (q : Bool) (d : Dst) (a : Src) (t : BlockFmt)
  /-- R86 -/
  | vrnd (g : Fin 8) (q : Bool) (d : Dst) (a : Src) (m : RndSel)
  /-- R87 -/
  | vscl (g : Fin 8) (q : Bool) (d : Dst) (a b : Src)
  /-- R88 -/
  | vsp2Enc (g : Fin 8) (q : Bool) (d : Dst) (a : Src) (h : Fin 4)
  /-- R88 -/
  | vsp2Dec (g : Fin 8) (q : Bool) (d : Dst) (a : Src) (h : Fin 4)
  /-- R89 -/
  | vpk (g : Fin 8) (q : Bool) (d : Dst) (a b : Src)
  /-- R89 -/
  | vupk (g : Fin 8) (q : Bool) (d : Dst) (a : Src) (x w : Bool) (i : Fin 4)
  /-- R173 -/
  | vld (g : Fin 8) (pm : Bool) (d : Dst) (a b : Src)
  /-- R173 -/
  | vst (g : Fin 8) (pm : Bool) (d : Reg) (a b : Src)
  /-- R174 -/
  | vlda (g : Fin 8) (h : Bool) (d : Dst) (a b : Src)
  /-- R174 -/
  | vsta (g : Fin 8) (d : Reg) (a b : Src)
  /-- R174 -/
  | vldc (g : Fin 8) (d : Dst) (a b : Src)
  /-- R174 -/
  | vstc (g : Fin 8) (d : Reg) (a b : Src)
  /-- R175 -/
  | vgat (g : Fin 8) (q : Bool) (d : Dst) (a b : Src)
  /-- R175 -/
  | vsct (g : Fin 8) (d : Reg) (a b : Src)
  /-- R176 -/
  | vpf (g : Fin 8) (k : Bool) (a b : Src)
  /-- R369 -/
  | vsmrg (d a : Reg) (k : Fin 8)
  /-- R383 -/
  | vlgsz (g : Fin 8) (q : Bool) (d : Reg) (a : Src) (base : Bool)
  /-- R250 -/
  | mcall (n : Fin 64)
  /-- R251 -/
  | mret
  /-- R251 -/
  | mloop (c : Fin 8) (off : W16)
  /-- R252 -/
  | mend (all : Bool) (c : Fin 8)
  /-- R253 -/
  | mlda (a : Fin 8) (h : Bool)
  /-- R254 -/
  | mmac (b c : Fin 8) (k : BitVec 12) (z : Bool)
  /-- R255 -/
  | mzero (c : Fin 8)
  /-- R256 -/
  | mdrain (d sc : Fin 8) (norm : Fin 8) (scl : Bool)
  /-- R257 -/
  | mhada (c : Fin 8) (ord : Fin 4) (z : Bool)
  /-- R258 -/
  | mkat (n : Fin 8)
  /-- R259 -/
  | madd (a b : Fin 8) (r : Bool) (c : BitVec 15)
  /-- R260 -/
  | mprogSet (a b : Fin 8) (n : Fin 64)
  /-- R260 -/
  | mprogClr (n : Fin 64)
  /-- R261 -/
  | msync
  /-- R222 -/
  | cpSrc (g : Fin 16) (e : Fin 2) (hi : Bool) (a b : Src)
  /-- R222 -/
  | cpDst (g : Fin 16) (e : Fin 2) (hi : Bool) (a b : Src)
  /-- R223 -/
  | cpShp (g : Fin 16) (e : Fin 2) (hi : Bool) (b : Src)
  /-- R224 -/
  | cpFmt (g : Fin 16) (e : Fin 2) (b : Src)
  /-- R224 -/
  | cpFmtCtl (g : Fin 16) (e : Fin 2) (b : Src)
  /-- R226 -/
  | cpGo (g : Fin 16) (e : Fin 2) (acq rel inp cw : Bool) (a b : Src)
  /-- R225 -/
  | cpFill (g : Fin 16) (e : Fin 2) (on : Bool) (b : Src)
  /-- R227 -/
  | cpStat (g : Fin 16) (e : Fin 2) (clr : Bool) (d : Reg)
  /-- R228 -/
  | cpCancel (g : Fin 16) (e : Fin 2) (b : Src)
  /-- R229 -/
  | cpTdef (g : Fin 16) (a b : Src)
  /-- R274 -/
  | resAlloc (g : Fin 16) (d : Reg) (b : Src)
  /-- R275 -/
  | resLoad (g : Fin 16) (a b : Src)
  /-- R277 -/
  | resPin (g : Fin 16) (a : Src)
  /-- R277 -/
  | resUnpin (g : Fin 16) (all : Bool) (a : Src)
  /-- R278 -/
  | resRevoke (g : Fin 16) (a : Src)
  /-- R276 -/
  | resReload (g : Fin 16) (a : Src)
  /-- R279 -/
  | resQ (g : Fin 16) (d : Reg) (b : Src)
  /-- R314 -/
  | rmaConn (g : Fin 16) (a b : Src)
  /-- R314 -/
  | rmaConnClose (g : Fin 16) (a : Src)
  /-- R315 -/
  | rmaPut (g : Fin 16) (nt : Bool) (a b : Src)
  /-- R316 -/
  | rmaGet (g : Fin 16) (e : Fin 2) (cw : Bool) (a b : Src)
  /-- R317 -/
  | rmaRed (g : Fin 16) (nt : Bool) (op : Fin 16) (a b : Src)
  /-- R318 -/
  | rmaStat (g : Fin 16) (d : Reg) (b : Src)
  /-- R334 -/
  | chSend (g : Fin 16) (rel : Bool) (a : Src)
  /-- R335 -/
  | chRecv (g : Fin 16) (a : Src)
  /-- R334 -/
  | chRed (g : Fin 16) (rel : Bool) (a : Src)
  /-- R334 -/
  | chBcast (g : Fin 16) (rel : Bool) (a : Src)
  /-- R334 -/
  | chAgat (g : Fin 16) (rel : Bool) (a : Src)
  /-- R336 -/
  | chWait (g : Fin 16) (ev : ChEvent) (acq : Bool) (a b : Src)
  /-- R337 -/
  | chQ (g : Fin 16) (d : Reg) (b : Src)
  /-- R359 -/
  | atQ (g : Fin 16) (arr rel acc : Bool) (a b : Src)
  /-- R360 -/
  | kvApp (g : Fin 16) (cw rel : Bool) (a b : Src)
  /-- R361 -/
  | pmRd (g : Fin 16) (a b : Src)
  /-- R362 -/
  | pmWrSeq (g : Fin 16) (a : Src)
  /-- R362 -/
  | pmWrUnit (g : Fin 16) (a : Src)
  /-- R363 -/
  | pmRebal (g : Fin 16) (cw : Bool) (a b : Src)
  /-- R364 -/
  | pxHash (g : Fin 16) (d : Reg) (b : Src)
  /-- R365 -/
  | pxLook (g : Fin 16) (d : Reg) (b : Src)
  /-- R365 -/
  | pxPin (g : Fin 16) (d : Reg) (b : Src)
  /-- R366 -/
  | pxUnpin (g : Fin 16) (a b : Src)
  /-- R367 -/
  | pxIns (g : Fin 16) (d : Reg) (b : Src)
  /-- R368 -/
  | tierIn (g : Fin 16) (e : Fin 2) (cw : Bool) (a b : Src)
  /-- R376 -/
  | tmMatch (g : Fin 16) (bk : Bool) (d : Reg) (b : Src)
  /-- R377 -/
  | tmMerge (g : Fin 16) (bk fin : Bool) (a b : Src)
  /-- R378 -/
  | tmUnmrg (g : Fin 16) (bk : Bool) (a b : Src)
  /-- R381 -/
  | tmFree (g : Fin 16) (a : Src)
  /-- R382 -/
  | tmSpill (g : Fin 16) (a b : Src)
  /-- R382 -/
  | tmFill (g : Fin 16) (d : Reg) (b : Src)
  /-- R110 -/
  | br (p : Reg) (n : Bool) (off : W16)
  /-- R110 -/
  | jal (p : Reg) (n : Bool) (off : W16)
  /-- R111 -/
  | jr (g : Fin 16) (d : Reg) (a b : Src)
  /-- R110 -/
  | loop (c : Fin 4) (off : W16)
  /-- R112 -/
  | lset (g : Fin 16) (c : Fin 4) (a : Src)
  /-- R113 -/
  | pand (pd pa pb : Reg)
  /-- R113 -/
  | por (pd pa pb : Reg)
  /-- R113 -/
  | pxor (pd pa pb : Reg)
  /-- R113 -/
  | pandn (pd pa pb : Reg)
  /-- R113 -/
  | pnot (pd pa : Reg)
  /-- R113 -/
  | pany (pd pa pb : Reg)
  /-- R113 -/
  | pall (pd pa pb : Reg)
  /-- R113 -/
  | pset (pd : Reg) (v : Bool)
  /-- R90 -/
  | fmtSet (g : Fin 16) (a b : Src)
  /-- R91 -/
  | fmtGet (g : Fin 16) (d : Dst)
  /-- R201 -/
  | phase (sc : Scope)
  /-- R202 -/
  | phin (g : Fin 16) (d : Dst)
  /-- R204 -/
  | fence (g : Fin 16) (l e : Bool)
  /-- R208 -/
  | barInit (g : Fin 16) (a b : Src)
  /-- R209 -/
  | barArr (g : Fin 16) (a : Src)
  /-- R209 -/
  | barWait (g : Fin 16) (a b : Src)
  /-- R206 -/
  | waita (g : Fin 16) (ge cb : Bool) (a b : Src)
  /-- R412 -/
  | tspawn (g : Fin 16) (a b : Src)
  /-- R413 -/
  | texit (g : Fin 16)
  /-- R414 -/
  | trap (g : Fin 16) (a : Src)
  /-- R415 -/
  | rfe (next : Bool)
  /-- R416 -/
  | fuse (g : Fin 16) (f : GangForm)
  /-- R416 -/
  | decpl (g : Fin 16)
  /-- R416 -/
  | rejoin (g : Fin 16)
  /-- R417 -/
  | prio (g : Fin 16) (a : Src)
  /-- R418 -/
  | sctPin (g : Fin 16) (a b : Src)
  /-- R418 -/
  | sctRel (g : Fin 16) (w : Bool) (a : Src)
  /-- R413 -/
  | halt (g : Fin 16)
  /-- R182 -/
  | commitComplete
  /-- R50 -/
  | loadDataArrival (k : Nat) (poison : Bool)
  /-- R394 -/
  | groupAbortNotice (gid : BitVec 8)
  /-- R180 -/
  | phaseBudget
  /-- R403 -/
  | lateTrapDelivery
  /-- R161 -/
  | mmpFaultService (found : MmpFind)
  /-- R162 -/
  | pagerCompletion (ticket : W32)
  /-- R163 -/
  | freezeLimit
  /-- R164 -/
  | pageMigrationStart (frame : Nat)
  /-- R164 -/
  | pageMigrationEnd (newFrame : Nat)
  /-- R157 -/
  | clearingComplete
  /-- R165 -/
  | poolLinkLost (port : Fin 2)
  /-- R422 -/
  | poolPortRetrain (port : Fin 2) (ok : Bool)
  /-- R422 -/
  | hostPortDown
  /-- R420 -/
  | hostCxlMemWrite (pa : Nat) (data : List Byte)
  /-- R218 -/
  | copyCommandComplete (e : Fin 2)
  /-- R221 -/
  | copyCommandFault (e : Fin 2) (why : XferFault)
  /-- R244 -/
  | matrixOpPerform
  /-- R258 -/
  | mkatRun
  /-- R270 -/
  | residencyLoadComplete (i : Fin 256)
  /-- R278 -/
  | residencyLoadFail (i : Fin 256) (why : XferFault)
  /-- R281 -/
  | arrayError (e : ArrayError)
  /-- R282 -/
  | compareModeRunEnd (r : CompareEnd)
  /-- R286 -/
  | flitCrcFail (f : FailedFlit)
  /-- R296 -/
  | linkTrainingResult (l : LinkNo) (lanes : Nat)
  /-- R296 -/
  | linkTrainingTimeout (l : LinkNo)
  /-- R293 -/
  | packetRoute (p : Packet)
  /-- R292 -/
  | multipathFallback (p : Packet)
  /-- R299 -/
  | fifowArrival (l : LinkNo) (words : List W64)
  /-- R299 -/
  | flow (l : LinkNo) (on : Bool)
  /-- R303 -/
  | orderedPacketReceipt (p : Packet)
  /-- R303 -/
  | orderedAckReceipt (node : BitVec 12) (seq : W32)
  /-- R303 -/
  | rtoExpiry (node : BitVec 12)
  /-- R307 -/
  | fabtmoExpiry (node : BitVec 12)
  /-- R304 -/
  | remoteReplyData (k : Nat) (data : ReplyData)
  /-- R304 -/
  | nakReceipt (k : Nat) (access : Bool)
  /-- R308 -/
  | openReceipt (p : Packet)
  /-- R308 -/
  | answerReceipt (ctxid : W32) (cn : Fin 16) (accepted : Bool)
  /-- R308 -/
  | connectionTimeout (ctxid : W32) (cn : Fin 16)
  /-- R308 -/
  | autoOpen (ctxid : W32) (cn : Fin 16)
  /-- R308 -/
  | brokenClose (ctxid : W32) (cn : Fin 16)
  /-- R310 -/
  | putPacketLanding (p : Packet) (len : Nat) (nt : Bool)
  /-- R309 -/
  | messageAckReceipt (ctxid : W32) (cn : Fin 16) (seq : W32) (mark : Bool)
  /-- R312 -/
  | redPacketApply (p : Packet) (m : RedMessage)
  /-- R316 -/
  | getreqReceipt (p : Packet)
  /-- R316 -/
  | getDataLanding (ctxid : W32) (cn : Fin 16) (seq : W32) (poff : Nat) (data : ReplyData)
  /-- R325 -/
  | collPacketReceipt (p : CollPkt)
  /-- R328 -/
  | sourceReadComplete (ch : BitVec 8)
  /-- R209 -/
  | barrierArrival (gid : BitVec 8) (b : BitVec 8)
  /-- R207 -/
  | groupTableFill (gid : BitVec 8) (rec : GroupRec)
  /-- R345 -/
  | queryAtHolder (q : Query)
  /-- R347 -/
  | partialMerge (q : QueryTag) (rank : Nat) (r : HolderReply)
  /-- R352 -/
  | resultRecordWrite (qid : Nat)
  /-- R438 -/
  | staleReport (qid : Nat)
  /-- R349 -/
  | attentionTimeout (qid : Nat)
  /-- R344 -/
  | appendAtHolder (r : Append)
  /-- R360 -/
  | appendComplete (aid : Nat) (why : Option Cause)
  /-- R362 -/
  | pmtWriteAtMember (e : SeqEntry) (w : MemberWrite)
  /-- R350 -/
  | rebalanceQuery (q : RebalAsk)
  /-- R350 -/
  | rebalanceApply (r : RebalStep)
  /-- R363 -/
  | rebalanceComplete (seqid : W32) (why : Option Cause)
  /-- R344 -/
  | unitCopyComplete (seqid : W32) (unit : Nat) (data : List Byte)
  /-- R368 -/
  | tierInComplete (e : Fin 2)
  /-- R344 -/
  | tierInFail (e : Fin 2) (why : XferFault)
  /-- R375 -/
  | tmCommandPerform
  /-- R387 -/
  | launchWordWrite (n : Fin 16)
  /-- R388 -/
  | dependenceWordWrite (pa : Nat)
  /-- R388 -/
  | startTimeTest
  /-- R389 -/
  | priorityAgeing
  /-- R390 -/
  | taskPlacement
  /-- R399 -/
  | saveComplete
  /-- R399 -/
  | emergencyAreaDrain
  /-- R395 -/
  | starveCountExpiry
  /-- R397 -/
  | gangForm
  /-- R398 -/
  | gangRejoin
  /-- R407 -/
  | streamIdleExpiry (id : BitVec 12)
  /-- R407 -/
  | streamEvictionComplete (id : BitVec 12)
  /-- R407 -/
  | streamLoadComplete (id : BitVec 12)
  /-- R405 -/
  | devtimeWrite (v : W64)
  /-- R423 -/
  | ppsEdge
  /-- R423 -/
  | devtimeSlewEnd
  /-- R435 -/
  | ecclogClear
  /-- R435 -/
  | linklogClear
  /-- R410 -/
  | haltmaskClear (k : Fin 4) (v : W64)
  /-- R285 -/
  | culletClear (c : BitVec 8)
  /-- R295 -/
  | routecfgVerWrite (ver : Bool)
  /-- R294 -/
  | routecfgDropClear
  /-- R294 -/
  | rtdatWrite (v : W64)
  /-- R410 -/
  | sctcfgWrite (v : W64)
  /-- R387 -/
  | lwaddrWrite (n : Fin 16) (v : W64)
  /-- R432 -/
  | hbmWordTransfer (x : HbmXfer)
  /-- R433 -/
  | laneSwapComplete (stack : Fin 8) (chan : Fin 32)
  /-- R424 -/
  | powerOnBoot (r : BootRun)
  /-- R424 -/
  | bootRecordClear (cmd : SignedBytes)
  /-- R427 -/
  | voltageAlarm
  /-- R427 -/
  | clockAlarm
  /-- R427 -/
  | temperatureAlarm
  /-- R427 -/
  | lidMeshAlarm
  /-- R429 -/
  | mailboxNonceWrite (nonce : BitVec 256)
  /-- R429 -/
  | attestationReportReady
  /-- R430 -/
  | clockStepDown
  /-- R430 -/
  | clockStepUp
  /-- R271 -/
  | poolBackInvalidation (pa : Nat)
  /-- R425 -/
  | mmpServiceRequest (r : MmpService)
  /-- R422 -/
  | hostPortRetrain (ok : Bool)
  /-- R296 -/
  | linkPartnerLost (l : LinkNo)
  /-- R289 -/
  | idleFlitReceipt (l : LinkNo) (cls : Fin 3) (vc : Bool) (on : Bool)
  /-- R280 -/
  | gixImageLoad (die : Fin 2) (slot : Fin 16) (img : List Byte)
deriving DecidableEq, Repr

end Sys2Proof
end

