-- ==== Sys2Proof/Config.lean ====
section
/-! DEFINITION. What the spec leaves to an implementation or leaves open: opaque free values, which no
proof can see, and the two identities of the modelled core. Each is named in a log entry. -/

namespace Sys2Proof.Config

/-- Nanoseconds of device time that pass in the n-th step of the machine (log 3): the spec fixes no
duration of a group in ns, only that DEVTIME never decreases (R405). -/
opaque elapsed : Nat → Nat

/-- How many of the overwrites made since the read-only bound an `ldro` has not yet seen (R169, log 4):
any number may be chosen, so the n-th choice is free. -/
opaque roAge : Nat → Nat

/-- The n-th 64-bit value that the spec leaves unspecified within the context (R7, log 6). -/
opaque freeWord : Nat → W64

/-- A byte that the spec leaves unspecified within the context, by step and address (R7, R156, log 6). -/
opaque freeByte : Nat → Nat → Byte

/-- What happens to an HBM word with three or more bad symbols (R432, log 7): 0 detected, 1 miscorrected,
2 or more delivered unmarked. -/
opaque eccBeyond : Nat → Nat

/-- The private keys of the key store unit, the attestation key and the identity key (R427, R429, log 8). -/
opaque attestKey : Nat
opaque identityKey : Nat

/-- The secret number of the n-th signature (FIPS 186-5, log 8). -/
opaque signNonce : Nat → Nat

/-- The frame the MMP's allocator hands out for the n-th request of a byte size in a stack (R161, R343, log 9). -/
opaque allocFrame : Nat → Nat → Nat → Nat

/-- What another core of a gang holds, as far as this core learns of it: whether the n-th comparison with a
companion agrees (R284, R398, log 14). -/
opaque companion : Nat → Bool

/-- Whether the n-th transfer of control of a gang has another target at a companion (R397, log 14). -/
opaque gangParts : Nat → Bool

/-- What the companions' groups meet when a gang issues its n-th group: the lowest slot of theirs that traps, its cause and
the GRANK, or none (R397, log 14). -/
opaque mateTrap : Nat → Option (Nat × Cause × Nat)

/-- Whether another core of the grove holds a map slot at the n-th step, and how often others have freed it since this core
last held it (R370, log 54). -/
opaque slotHeld : Nat → Nat → Bool
opaque slotUses : Nat → Nat → Nat

/-- Whether a context of another core, by its CTXID, has left that core by the n-th step (R393, log 60). -/
opaque leaves : Nat → W32 → Bool

/-- Whether such a context that has a pre-emption request leaves by a switch-out, and not because its task ends (R392, R393,
log 60). -/
opaque switchesOut : Nat → W32 → Bool

/-- Whether the L2 holds a 128-byte sector of HBM at the n-th step, so that a read moves no word of it (R431, log 106). -/
opaque l2Holds : Nat → Nat → Bool

/-- The core id of the one core that is modelled in detail (R11, log 1). -/
def coreId : BitVec 8 := 0x00

/-- The size in bytes of a context save area (R400). -/
def saveSize : Nat := 4206592

end Sys2Proof.Config
end

