-- ==== Sys2Proof/Machine/State.lean ====
section
/-! DEFINITION. The state of the machine as plain data: one core with its two resident contexts (R14,
R15), the tables and memories of its package (R21), and what the outside has still to do to it. The
file also holds the reasons a step stops and the state after reset. -/

namespace Sys2Proof.Machine

/-- Memory as address and byte pairs, addresses strictly rising, none listed whose byte is 0, which is
what an unlisted address reads as (log 10). -/
abbrev Cells := List Host.Cell

/-- A table with natural-number keys in rising order; an absent key has the table's own default. -/
abbrev Table (β : Type) := List (Nat × β)

/-! ## Engines' descriptions -/

/-- A tensor-table entry as its 64 bytes give it (R150). -/
structure Tensor where
  desc : Nat
  base : Nat
  ext : List Nat
  str : List Nat
  til : List Nat
  bufsz : Nat
  rsvd : Nat
deriving DecidableEq, Repr

/-- A shadow set: the description of an engine's next command (R211). -/
structure Shadow where
  stid : BitVec 10
  sc : Vector W32 4
  dtid : BitVec 10
  dc : Vector W32 4
  bx : Vector W32 4
  conv : W16
  ctl : BitVec 6
  fill : W64
  fm : Bool
deriving DecidableEq, Repr

/-- What a `cp` slot writes into a shadow set (R222 to R225). -/
inductive ShadowW where
  | src (tid : BitVec 10) (c0 c1 : W32)
  | srcHi (c2 c3 : W32)
  | dst (tid : BitVec 10) (c0 c1 : W32)
  | dstHi (c2 c3 : W32)
  | shp (b0 b1 : W32)
  | shpHi (b2 b3 : W32)
  | conv (x : W16)
  | ctl (x : BitVec 6)
  | fill (x : W64) (fm : Bool)
deriving DecidableEq, Repr

/-- The A stream descriptor: OFF, PITCH in 32-byte units, H (R233, R235). -/
structure Asd where
  off : Nat
  pitch : Nat
  h : Bool
deriving DecidableEq, Repr

/-- What a unit keeps of the context whose command it performs: its identity, mode, roots and the phase in which
the command issued. -/
structure Owner where
  ctxid : W32
  sup : Bool
  asid : W64
  ptroot : W64
  ptpool : W64
  pthost : W64
  phseq : W64
deriving DecidableEq, Repr

/-- A copy command (R213): its snapshot of the shadow set and of both tensor-table entries, its flags, where its
completion word goes, and by how much the half it uses lies above the logical offsets. -/
structure Xfer where
  /-- its number among the context's engine commands (R204) -/
  no : Nat
  e : Fin 2
  acq : Bool
  rel : Bool
  inp : Bool
  /-- completion word: CB or AS, logical offset, value (R218) -/
  cw : Option (Bool × Nat × W32)
  sh : Shadow
  src : Tensor
  dst : Tensor
  sUp : Nat
  dUp : Nat
  /-- a refetch of a declared input (R219) -/
  refetch : Bool
  own : Owner
deriving DecidableEq, Repr

/-- A matrix operation in the sequencer (R244): a direct one with the parameters its group read, or a call with
its copies (R249). -/
inductive MxKind where
  | mzero (c : W64)
  | mmac (b c : W64) (k : Nat) (z : Bool)
  | mdrain (d sc : W64) (norm : Nat) (scl : Bool)
  | mhada (c : W64) (ord : Nat) (z : Bool)
  | call (n : Nat) (m : Vector W64 8)
  /-- `mlda` and `mend`, whose effects the issue has made -/
  | nop
deriving DecidableEq, Repr

/-- A queued matrix operation: its engine-command number, the FMT and ASD it reads, and its slot's address. -/
structure MxOp where
  no : Nat
  kind : MxKind
  fmt : W64
  asd : Asd
  addr : W64
deriving DecidableEq, Repr

/-- A running routine (R249): its copies, the start of its group, the next slot, and what the group's end does. -/
structure Routine where
  no : Nat
  fmt : W64
  addr : W64
  base : Nat
  len : Nat
  start : Nat
  pc : Nat
  /-- the target of the group's `mloop` and that slot's number -/
  jump : Option (Nat × Nat)
  ret : Bool
  m : Vector W64 8
  asd : Asd
deriving DecidableEq, Repr

/-- A known-answer tile to be run in idle clk (R258). -/
structure Kat where
  no : Nat
  n : Nat
  sig : BitVec 28
  addr : W64
deriving DecidableEq, Repr

/-- Compare mode (R282): run A or run B, whether it has reached the group where it stops, and the residencies whose reload
the run waits for; the array clk it has spent on k-steps, what its tile and drain writes wrote, its signature once it has
stopped, and what run A recorded. -/
structure Compare where
  runB : Bool
  stopped : Bool
  loads : List Nat
  clk : Nat
  log : List Byte
  sig : W64
  runA : Option (Nat × W64)
deriving DecidableEq, Repr

/-- What a token merge command does (R376 to R378, R382): the record's offsets are physical, the source and
destination rows given by first offset, pitch, width in elements, and format. -/
inductive TmKind where
  /-- keep the `rcnt` best edges of n rows -/
  | pair (src pitch w : Nat) (f : Fmt) (n rcnt : Nat)
  | merge (src dst sp dp w : Nat) (f : Fmt) (sizes : Option Nat)
  | restore (src dst sp dp len : Nat)
  | spill (off : Nat)
deriving DecidableEq, Repr

/-- A token merge command: its engine-command number, the slot and generation it names, what it does. -/
structure TmCmd where
  no : Nat
  slot : Nat
  gen : W16
  kind : TmKind
deriving DecidableEq, Repr

/-! ## One context -/

/-- The architectural state of a context that a rollback restores (R183): scalar registers, vector
registers, predicates with their uniform bits, the matrix parameter registers, the loop counters, FMT,
vsticky, the lane states and the context system registers. A taint bit stands beside every register (R95,
R118). -/
structure Arch where
  /-- PC, a group start (R15) -/
  pc : W64
  /-- s0 to s31 (R92) -/
  s : Vector W64 32
  sTaint : BitVec 32
  /-- v0 to v31 (R15, R70) -/
  v : Vector VWord 32
  vTaint : BitVec 32
  /-- lane bits of p0 to p31 (R93) -/
  p : Vector LaneMask 32
  /-- uniform bits of p0 to p31 (R93) -/
  pUni : BitVec 32
  pTaint : BitVec 32
  /-- m0 to m7 (R15, R233) -/
  m : Vector W64 8
  mTaint : BitVec 8
  /-- ASD and MXSTAT (R233, R234) -/
  asd : Asd
  mxstat : W64
  /-- the open set and the written marks: tiles as CB offset and size (R233, R237, R238) -/
  opens : List (Nat × Nat)
  marks : List (Nat × Nat)
  /-- the shadow sets of c0 and c1 (R211) -/
  shadow : Vector Shadow 2
  /-- lc0 to lc3 (R97) -/
  lc : Vector W32 4
  /-- FMT (R76) -/
  fmt : W64
  /-- vsticky (R120) -/
  sticky : Sticky
  /-- the lane states X0 to X63 of stochastic rounding, lane 0 lowest (R80) -/
  lanes : VWord
  /-- PHBUDGET (R180) -/
  phbudget : W64
  /-- TRCAUSE, TRMASK, TRPC, TRADDR, TRVEC (R410) -/
  trcause : W64
  trmask : W64
  trpc : W64
  traddr : W64
  trvec : W64
  /-- CTXSTAT.INH (R410) -/
  inh : Bool
  /-- CTXSTAT.IPRIO (R417) -/
  iprio : BitVec 3
  /-- PTROOT, PTPOOL, PTHOST, PMROOT (R148) -/
  ptroot : W64
  ptpool : W64
  pthost : W64
  pmroot : W64
  /-- TENSBASE, PMSIZE, ASID (R148) -/
  tensbase : W64
  pmsize : W64
  asid : W64
  /-- QUOTA's TENANT and LIMIT (R268) -/
  quota : W64
deriving DecidableEq, Repr

/-- What a pending result writes when it falls due (R47, R48). -/
inductive Eff where
  | s (r : Reg) (x : W64) (t : Bool)
  | v (r : Reg) (x : VWord) (t : Bool)
  | p (r : Reg) (lanes : LaneMask) (t : Bool)
  | latS (n : LatchNo) (x : W64) (t : Bool)
  | latV (n : LatchNo) (x : VWord) (t : Bool)
  | push (n : LinkNo) (words : List W64)
  | lc (n : Fin 4) (x : W32)
  | m (n : Fin 8) (x : W64) (t : Bool)
  | shadow (e : Fin 2) (w : ShadowW)
  /-- the context's view of a tensor-table entry (R229) -/
  | tdef (tid : Nat) (b : List Byte)
  | fmt (x : W64) (mask : W64)
  | sticky (x : Sticky)
  | stclr (x : Sticky)
  | sysreg (n : BitVec 12) (x : W64)
  | prio (x : BitVec 3)
  /-- bytes of AS (`cb` false) or CB at physical offsets of the buffer -/
  | buf (cb : Bool) (w : Cells)
deriving DecidableEq, Repr

/-- A pending result: the group at which it is due (R47) or, while held for a handler, its remaining
distance (R52). -/
structure Pend where
  due : Nat
  eff : Eff
deriving DecidableEq, Repr

/-- The value of a latch (R32). -/
inductive LatchVal where
  | scalar (x : W64)
  | vector (x : VWord)
deriving DecidableEq, Repr

/-- A latch: its value and kind where it is valid, and its taint (R32, R118). -/
structure Latch where
  val : Option LatchVal
  taint : Bool
deriving DecidableEq, Repr

/-- One byte a load collects: a byte forwarded from the store buffer, fixed at issue (R159), or a byte of
committed memory at a physical address, read when the load is performed. -/
inductive LByte where
  | fwd (b : Byte)
  | mem (pa : Nat)
deriving DecidableEq, Repr

/-- Where the data of a scoreboarded operation goes (R50). A vector destination keeps the value it held
at the slot's own group for the lanes it does not write (R34). -/
inductive LDst where
  | none
  | scalar (d : Dst)
  | vector (d : Dst) (old : VWord)
deriving DecidableEq, Repr

/-- The read-modify-write of an atomic (R203). -/
inductive AtomOp where
  | add | min | max | and | or | xor | xchg | cas
deriving DecidableEq, Repr

/-- What a scoreboarded operation does when it is performed: a load with the byte positions it fills in a
destination of 8 or 256 bytes, an atomic at a physical address, or an access at another node. -/
inductive MKind where
  | load (bytes : List (Nat × LByte))
  /-- a read-only load: the positions in the write history of its context's bound and of its issue (R169) -/
  | loadRo (bytes : List (Nat × LByte)) (bound issued : Nat)
  | atom (op : AtomOp) (pa : Nat) (b e : W64)
  /-- a read of another node at an offset: each byte forwarded, or at an offset of that node; the reply carries the
  latter in order (R304) -/
  | remoteLoad (node : BitVec 12) (off : Nat) (bytes : List (Nat × LByte))
  | remoteAtom (node : BitVec 12) (off : Nat) (op : AtomOp) (b e : W64)
  /-- a read of MXSTAT, once the matrix operations with a lower engine-command number have been performed: the tiles that
  are open at it, and the other fields once they are known (R262) -/
  | stat (no : Nat) (opens : List (Nat × Nat)) (got : Option W64)
deriving DecidableEq, Repr

/-- A scoreboarded operation outstanding: a load or atomic issued and not yet performed (R50). -/
structure MemOp where
  kind : MKind
  dst : LDst
  taint : Bool
  /-- an `ldc`, which tainted accesses wait for (R198) -/
  dep : Bool
  /-- the access's own address, operand or guard was tainted (R198) -/
  tainted : Bool
  /-- the number of L fences issued before it (R204) -/
  fences : Nat
  acq : Bool
  rel : Bool
  scope : AScope
  /-- issued before a trap whose handler is running, so that `rfe` does not wait for it (R52) -/
  held : Bool
  /-- of a remote operation, the path sequence number of its request (R303) -/
  seq : W32
  /-- the context's group count at its issue -/
  gc : Nat
deriving DecidableEq, Repr

/-- The trap, wait or freeze that keeps a context's next group from issuing (R163, R415). -/
inductive Wait where
  /-- `waita` (R206): buffer, physical offset, value, compare by ≥ -/
  | word (cb : Bool) (off : Nat) (x : W32) (ge : Bool)
  /-- `bar.wait` (R209): group id, barrier entry, awaited generation -/
  | barrier (gid : BitVec 8) (entry : Nat) (gen : W32)
  /-- `rejoin` (R398) -/
  | rejoin
  /-- `msync` (R261) -/
  | msync
  /-- `ch.recv` on a channel, until its buffers are free (R335) -/
  | chRecv (ch : BitVec 8)
  /-- `ch.wait` (R336): channel, event, operation number -/
  | chWait (ch : BitVec 8) (ev : ChEvent) (op : W32)
  /-- `pm.rd` and `pm.wr`: until the answer of request n (R361, R362) -/
  | pmt (n : Nat)
deriving DecidableEq, Repr

/-- The access that met an invalid PTE (R161): its address, space, kind, and the place of the PTE that
stopped the walk (none where the root itself is invalid). Level 4 stands for a PTE of a tile table. -/
structure FaultRec where
  va : W64
  space : Nat
  /-- 0 read, 1 write, 2 fetch, 3 engine (R162) -/
  access : Nat
  ptePa : Option Nat
  level : Nat
deriving DecidableEq, Repr

/-- A region of a typed buffer (R154, R156): tensor id, CB or AS, offset, bytes per half, phased, and
which physical half is the front. -/
structure Region where
  tid : Nat
  cb : Bool
  base : Nat
  size : Nat
  phased : Bool
  flip : Bool
deriving DecidableEq, Repr

/-- One operation of the phase's buffered set (R177, R182). -/
inductive Buffered where
  /-- a store to device, pool, host or PM, as physical bytes (R159) -/
  | store (bytes : Cells)
  /-- a store to another node: node, offset, bytes (R305) -/
  | remote (node : BitVec 12) (off : Nat) (data : List Byte)
  /-- a vector store to another node: its enabled lanes' bytes by offset (R173, R305) -/
  | remoteV (node : BitVec 12) (off : Nat) (bytes : Cells)
  /-- a put or a reduce-store (R315, R317): connection number, notify, reduce operation, remote offset, local
  physical address of each source byte's page part, bytes -/
  | message (cn : Fin 16) (nt : Bool) (op : Option (Fin 16)) (off : Nat) (src : List Nat) (len : Nat)
  | barInit (gid : BitVec 8) (b : BitVec 8) (n : BitVec 16)
  | barArr (gid : BitVec 8) (b : BitVec 8)
  | spawn (va : W64) (n : Nat)
  | sctPin (id : BitVec 12)
  | sctRel (id : BitVec 12) (wb : Bool)
  | fuse (f : GangForm)
  | decpl
  /-- a deferred copy (R214) -/
  | copy (x : Xfer)
deriving DecidableEq, Repr

/-- A source of the dispatcher's round robin (R389): a launch slot or a spawning core. -/
inductive TaskSrc where
  | slot (n : Fin 16)
  | core (c : BitVec 8)
deriving DecidableEq, Repr

/-- A queued task (R384, R388, R389): its record, its environment, its source, its dependence words by
physical address, and the device time since which it has been READY. -/
structure Task where
  entry : W64
  affinity : W64
  args : W64
  start : W64
  gids : List (BitVec 8)
  prio : BitVec 3
  twin : Bool
  prt : Bool
  timed : Bool
  strm : Bool
  link : Bool
  sup : Bool
  stream : BitVec 12
  deps : List (Nat × W32)
  env : Nat
  src : TaskSrc
  ready : Option W64
  /-- the core and context of each of its pre-emption requests (R392) -/
  req : List (BitVec 8 × Bool)
deriving DecidableEq, Repr

/-- The context's identity and what its task record gave it (R384, R410). -/
structure Ident where
  ctxid : W32
  /-- the queued task it was placed from (R384) -/
  task : Option Task
  /-- the task's priority, groups, stream and flags -/
  prio : BitVec 3
  gids : List (BitVec 8)
  prt : Bool
  link : Bool
  sup : Bool
  strm : Bool
  stream : BitVec 12
  entry : W64
  /-- SAVEBASE, and the PA of the environment record (R410) -/
  savebase : W64
  ctxenv : W64
  /-- STRINFO (R406, R410) -/
  strinfo : W64
  /-- gang fields of CTXSTAT: GRANK, GSIZE, TWIN, DEC (R410) -/
  grank : BitVec 2
  gsize : BitVec 2
  twin : Bool
  dec : Bool
  /-- CTXSTAT.LEASE (R298) -/
  lease : Bool
  /-- its tensor table breaks R154: it traps TENSOR at its entry group, and does not start -/
  unfit : Bool
deriving DecidableEq, Repr

/-- How a commit ends (R181, R413). -/
inductive Ending where
  | goOn | texit | halt
deriving DecidableEq, Repr

/-- A trap to be delivered at the context's next group: its cause and TRADDR, and whether work of the open phase
raised it, with which a rollback drops it (R180, R221, R247, R278). -/
structure Late where
  cause : Cause
  addr : W64
  ofPhase : Bool
deriving DecidableEq, Repr

/-- The handler of a trap: results and waits held for `rfe` (R52, R415). -/
structure Held where
  pend : List Pend
  waits : List Wait
deriving DecidableEq, Repr

/-- A commit under way (R182, R187): its scope, what follows it, and the operations not yet performed. -/
structure CommitRec where
  scope : Scope
  ending : Ending
  /-- the pending results are taken and the buffered set is being performed -/
  started : Bool
  /-- an effect has been performed: the point of no return is passed (R181, R184) -/
  past : Bool
  rest : List Buffered
  /-- how many reduce-stores of the phase have been sent (R312) -/
  reds : Nat
deriving DecidableEq, Repr

/-- A resident context (R15). `a` is its running state, `ck` the checkpoint (R183). -/
structure Ctx where
  /-- the slot holds a context -/
  live : Bool
  id : Ident
  a : Arch
  ck : Arch
  /-- the group count (R46) -/
  gc : Nat
  /-- PHSEQ (R179) -/
  phseq : W64
  /-- E of R178, Reruns of R184, the phase clock of R180 -/
  emitted : Bool
  reruns : Nat
  clock : Nat
  /-- pending results in order of issue (R47) -/
  pend : List Pend
  latch : Vector Latch 8
  /-- results and waits held for a trap handler (R52) -/
  held : Option Held
  /-- scoreboarded operations outstanding, in order of issue (R50) -/
  ops : List MemOp
  /-- L fences issued in this phase (R204) -/
  fences : Nat
  /-- an engine fence: engine commands numbered below it are waited for (R204) -/
  engFence : Nat
  /-- engine commands issued so far -/
  engCount : Nat
  /-- the phase's buffered set in issue order (R177, R182) -/
  buf : List Buffered
  /-- the context's regions (R154), its stream region last (R406) -/
  regions : List Region
  /-- the back halves of its phased regions at the start of the phase, AS and CB (R156, R185) -/
  backAs : Cells
  backCb : Cells
  /-- the position in the write history of its read-only bound (R169, R171) -/
  roBound : Nat
  /-- bytes of plain regions written in this phase, in CB or AS (R156) -/
  dirty : List (Bool × Nat)
  /-- the entries that `cp.tdef` defined in this phase (R229) -/
  tdefs : List (Nat × List Byte)
  /-- DONE and ERR of the two engines (R227) -/
  cpDone : Vector W32 2
  cpErr : Vector (BitVec 4) 2
  /-- the declared inputs of this phase and of the previous one (R219) -/
  inputs : List Xfer
  prevInputs : List Xfer
  /-- matrix operations not yet performed, oldest first, the routine that runs, known-answer tiles (R244) -/
  mxq : List MxOp
  routine : Option Routine
  kats : List Kat
  /-- token merge commands not yet performed, oldest first (R375) -/
  tmq : List TmCmd
  /-- residency entries that the phase's operations named (R282) -/
  named : List Nat
  /-- the bytes that routines of the context have touched since its queue was last empty, and whether a V slot has
  waited for one (R245) -/
  rTouch : List (Bool × Nat × Nat)
  raced : Bool
  /-- compare mode, and a twin mismatch already met in this phase (R282, R284) -/
  compare : Option Compare
  twinMiss : Bool
  /-- conditions its next group waits for (R415), and the channels whose DEPTH stalls its group (R330) -/
  waits : List Wait
  chStall : List (BitVec 8)
  /-- a translation fault that freezes it, and the device time since when (R161, R163) -/
  frozen : Option FaultRec
  frozenSince : W64
  /-- the addresses of its next group for which the MMP found no mapping (R161) -/
  unmapped : List W64
  /-- traps to take at the next group (R180, R403) -/
  late : List Late
  /-- a pre-emption request of the dispatcher (R392) -/
  preempt : Bool
  /-- a commit whose effects are not all published (R182) -/
  commit : Option CommitRec
  /-- the context is being saved after a commit (R393, R399) -/
  saving : Bool
  /-- its regions are still being cleared (R157) -/
  clearing : Bool
deriving DecidableEq, Repr

/-! ## The core -/

/-- A link receive queue (R191, R299): its words, oldest first, and how many of them have been popped
since the last commit. -/
structure RecvQ where
  words : List W64
  rd : Nat
deriving DecidableEq, Repr

/-- The states of a link (R296). -/
inductive LinkState where
  | off | training | up | retrain | degraded | failed
deriving DecidableEq, Repr

/-- A link of the torus (R296, R297): CRCERR, REPLAY, LANES, CONN, STATE, and the successive replays of the
flit at its head. -/
structure Link where
  crcerr : W32
  replay : W16
  lanes : Nat
  conn : Bool
  state : LinkState
  streak : Nat
deriving DecidableEq, Repr

/-- A barrier entry of a core: target N, count, generation (R207). -/
structure BarEnt where
  n : BitVec 16
  count : BitVec 16
  gen : W32
deriving DecidableEq, Repr

/-- The states of a residency (R264). -/
inductive ResState where
  | free | absent | loading | ready | stale | revoked
deriving DecidableEq, Repr

/-- An entry of the residency table (R264). `space` says that it holds its granules, `seen` that a watched write
was performed during its load, `used` orders uses for eviction; `watch` and `frames` are physical. -/
structure ResEnt where
  state : ResState
  tenant : BitVec 8
  gen : W16
  desc : W32
  pins : Nat
  src : Option W64
  len : Nat
  space : Bool
  watched : Bool
  watch : List (Nat × Nat)
  frames : List Nat
  seen : Bool
  used : Nat
  usecnt : Nat
  /-- the contents as loaded, in the order of the source image (R267) -/
  data : List Byte
  /-- who started the load, and whether a waiting check did (R275, R278) -/
  own : Owner
  transparent : Bool
  /-- the running routine whose operation waits for a transparent reload, by its engine-command number (R247) -/
  routine : Option Nat
deriving DecidableEq, Repr

/-- A map slot of the grove (R370 to R372): its generation; its owner, where it is not FREE; whether it is
PENDING; N0 and NC; the edges that the last matching keeps; whether the owner's open phase has changed it. -/
structure MapSlot where
  gen : W16
  owner : Option W32
  pending : Bool
  n0 : Nat
  nc : Nat
  rcnt : Nat
  touched : Bool
deriving DecidableEq, Repr

/-- A map as the performed commands leave it (R371): DEST, SIZE and the edge set, by slot and generation. -/
structure MapData where
  slot : Nat
  gen : W16
  dest : List Nat
  size : List Nat
  edges : List (Nat × Nat)
deriving DecidableEq, Repr

/-- The state of the modelled core that its two contexts share (R14). -/
structure Core where
  /-- the activation store and the accumulator buffer by physical offset (R154) -/
  as : Cells
  cb : Cells
  /-- the bytes of CB or AS that hold poison (R184) -/
  bad : List (Bool × Nat)
  /-- receive queues and send queues of the six links (R13, R14, R299) -/
  recv : Vector RecvQ 6
  send : Vector (List W64) 6
  /-- the neighbour's queue is OFF; this core has sent FLOW OFF (R299) -/
  peerOff : Vector Bool 6
  flowOff : Vector Bool 6
  /-- barrier entries 0 to 1023 (R207) -/
  bars : Table BarEnt
  /-- the core group of each membership slot (R207) -/
  member : Vector (Option (BitVec 8)) 4
  /-- the secondary's starve count, and the context that is primary for one group (R395) -/
  starve : Nat
  boost : Bool
  /-- bytes of a faulted save that lie in the core's emergency area (R399) -/
  emerg : List (Nat × Byte)
  /-- copy commands handed to the engines and not complete, oldest first, and the context that an engine served
  last in a class (R217) -/
  xq : List Xfer
  served : Table W32
  /-- the residency table; an absent entry is free with GEN = 1 (R263) -/
  res : Table ResEnt
  /-- the microprogram store, and the base and length of each valid routine (R248) -/
  mstore : Table W32
  routines : Table (Nat × Nat)
  /-- the map slots of the core's grove; an absent slot is FREE with GEN = 1 (R370) -/
  maps : Table MapSlot
  mapData : List MapData
deriving DecidableEq, Repr

/-! ## Collectives -/

/-- One tree of a collective operation at this member's position (R323, R325): the values that have become available,
0 the left subtree's, 1 its own, 2 the right subtree's, in the order of becoming so; whether their combination has gone
up; the result half, once it has come down, and whether it is written into the result slot. -/
structure TreeHalf where
  vals : List (Nat × List Byte)
  sent : Bool
  res : Option (List Byte)
  put : Bool
deriving DecidableEq, Repr

/-- An operation of this member (R328): its number on the channel and among engine commands, its source slot as captured
at issue, whether that slot may be reused, its two halves, whether the receiver or every member has finished, and, of one
whose first packet waits for a release, the group count of its issue (R331). -/
structure CollOp where
  k : Nat
  no : Nat
  src : List Byte
  read : Bool
  a : TreeHalf
  b : TreeHalf
  landed : Bool
  fin : Bool
  waits : Option Nat
deriving DecidableEq, Repr

/-- A channel entry (R319) with this core's member state (R322, R328): counts of operations issued, and of those that
have reached SR, LR and AF; the halves of results that have come for want of an owner that is there, in the order of arrival, and
the packets so held; FAULT. -/
structure Chan where
  ent : List Byte
  fault : Bool
  owner : Option Owner
  issued : Nat
  sr : Nat
  lr : Nat
  af : Nat
  ops : List CollOp
  order : List (Nat × Bool)
  early : List CollPkt
deriving DecidableEq, Repr

/-! ## Attention -/

/-- The states of a unit entry that is not ABSENT (R341). -/
inductive UnitState where
  | valid | mirror | copying | paging
deriving DecidableEq, Repr

/-- A unit entry of the position-map table (R341): FRAME, the pool physical address recorded with it (R362), FILL, TIER,
the range that a page-in or a copy fills, and the appends held meanwhile (R344). -/
structure UnitEnt where
  seqid : W32
  unit : Nat
  frame : Nat
  poolPa : Nat
  fill : Nat
  state : UnitState
  tier1 : Bool
  pri : BitVec 12
  mir : Option (BitVec 12)
  gen : W16
  fresh : Nat
  held : List Append
deriving DecidableEq, Repr

/-- What one package sends itself or another for attention, in injection order (R349). -/
inductive AttnReq where
  | query (q : Query)
  | append (r : Append)
  | write (e : SeqEntry) (remove : Bool) (from_ : BitVec 12) (n : Nat)
  /-- a unit of this package that moves to the pool tier, with its FRAME and pool physical address (R362) -/
  | tierOut (id : W32) (unit : Nat) (frame poolPa : Nat) (n : Nat)
deriving DecidableEq, Repr

/-- A query of this package that is not complete (R359, R438): its record and result offsets, DH, MAXMISS, the holders
it was sent to, the merged result once it has arrived, what its result record held at its issue, whether STALE has been
reported while its context was away. -/
structure Ask where
  qid : Nat
  /-- its number among the context's engine commands (R204), as in the records below -/
  no : Nat
  own : Owner
  recOff : Nat
  resOff : Nat
  dh : Nat
  maxMiss : Nat
  acc : Bool
  gen : W16
  root : Nat
  got : Option HolderReply
  since : W64
  was : List Byte
  stale : Bool
deriving DecidableEq, Repr

/-- A query that meets at this package's position of its tree (R347): the rank here, how many holders, the values
available in the order of arrival (0 left, 1 own, 2 right). -/
structure Fold where
  q : Query
  arr : Bool
  rank : Nat
  holders : List (BitVec 12)
  vals : List (Nat × HolderReply)
deriving DecidableEq, Repr

/-- An append of this package that is not complete (R360): its record offset, its completion word, whether the holder here
has still to perform it, and whether others have. -/
structure AppOp where
  aid : Nat
  no : Nat
  own : Owner
  recOff : Nat
  cw : Option Nat
  here : Bool
  away : Bool
  since : W64
deriving DecidableEq, Repr

/-- A `pm.wr` that its context waits for (R362): its record offset, when it was sent, its packets to the other members, by
path, and whether this package has still to apply it. -/
structure PmtOp where
  n : Nat
  own : Owner
  recOff : Nat
  since : W64
  path : List (BitVec 12 × W32)
  here : Bool
deriving DecidableEq, Repr

/-- A `pm.rebal` of this package (R350, R363): the members that have still to answer, the highest unit known so far with
its PRI and MIR, and, once the step has been sent, its packets by path; `since` is the time of what it last sent. -/
structure RebalOp where
  n : Nat
  own : Owner
  no : Nat
  seqid : W32
  lost : BitVec 12
  gen : W16
  cw : Option Nat
  others : List (BitVec 12)
  left : List (BitVec 12)
  best : Option (Nat × BitVec 12 × Option (BitVec 12))
  sent : Bool
  path : List (BitVec 12 × W32)
  since : W64
deriving DecidableEq, Repr

/-- A `tier.in` command of a copy engine (R368), with the range that it fills. -/
structure TierOp where
  own : Owner
  no : Nat
  e : Fin 2
  pri : Nat
  seqid : W32
  unit : Nat
  cw : Option Nat
  fresh : Nat
deriving DecidableEq, Repr

/-- A valid entry of the prefix table (R354). -/
structure PxEnt where
  key : W64
  depth : Nat
  seqid : W32
  ref : Nat
  stamp : Nat
deriving DecidableEq, Repr

/-- The attention state of a package (R339, R349, R354): sequence entries by SEQID, unit entries, this package's requests
to itself, those that a rebalance holds back, what is not complete, the partials of a tree's children that came before this
package met the query (query, requester, rank), the next request number, the prefix table. -/
structure Attn where
  seqs : Table SeqEntry
  units : List UnitEnt
  queue : List AttnReq
  gathering : List (W32 × BitVec 12)
  heldq : List AttnReq
  asks : List Ask
  folds : List Fold
  early : List (Nat × BitVec 12 × Nat × HolderReply)
  apps : List AppOp
  pmts : List PmtOp
  rebals : List RebalOp
  tiers : List TierOp
  next : Nat
  px : Table PxEnt
  stamp : Nat
deriving DecidableEq, Repr

/-! ## The device -/

/-- The key store unit (R427, R428): whether its keys stand, the hash of the firmware key, the rollback counter, the
alarm policies (voltage, clock, temperature, lid mesh), and the entries that policy LOG has made in the MMP log. -/
structure Ksu where
  idKey : Bool
  attKey : Bool
  keyHash : BitVec 256
  counter : W32
  policy : Vector Policy 4
  log : List (List Byte)
deriving DecidableEq, Repr

/-- Boot and attestation (R424, R428, R429): the boot record's step status and count, the firmware image chosen, the
digests of the running images, the nonce awaiting its report, the last report. -/
structure Boot where
  status : Vector (BitVec 2) 8
  failed : Nat
  count : W64
  images : List (BitVec 256)
  nonce : Option (BitVec 256)
  report : Option (List Byte)
deriving DecidableEq, Repr

/-- HBM health (R425, R426, R431 to R435): the two logs, LANEMAP, pseudo-channels retired, spare lanes in use with the
lane each replaces, parity retries and cell errors in their window, channels swapping a lane. Words stand by their number,
PA / 64: the symbols that cells hold wrong, the lanes on which each of the next transfers of a word fails, retries held for a
swap with how many were made, words that have been read for an access that has still to take them. -/
structure Hbm where
  ecclog : W64
  linklog : W64
  lanemap : W64
  retiredPc : List Nat
  spares : List (Nat × Nat × Nat)
  retries : List (Nat × Nat × W64)
  cellErrs : List (Nat × W64)
  swapping : List (Nat × Nat)
  cells : Table (List Nat)
  parity : Table (List (List Nat))
  waiting : List (Nat × Nat)
  fetched : List Nat
  /-- words whose delivery carries poison -/
  poison : List Nat
deriving DecidableEq, Repr

/-! ## The package -/

/-- An ordered path to a node (R303): the next sequence number, the packets not acknowledged, the VER they
were sent under, the device time of the last acknowledgement, and the packets that wait for room on the path. Beside
each packet sent stands when. -/
structure OPath where
  next : W32
  unacked : List (Packet × W64)
  ver : Bool
  since : W64
  wait : List Packet
deriving DecidableEq, Repr

/-- The states of a connection (R308). -/
inductive ConnState where
  | closed | opening | opened | broken | closing
deriving DecidableEq, Repr

/-- A message of a connection that is outstanding or waits for the window (R309, R310). -/
structure Message where
  seq : W32
  len : Nat
  /-- a put, a reduce-store with its operation, or a get -/
  op : Option (Fin 16)
  get : Bool
  nt : Bool
  off : Nat
  data : List Byte
  /-- index of a reduce-store in its phase (R312), and PHSEQ -/
  index : Nat
  phseq : W64
  /-- when it was last sent, and the VER under which its packets were injected (R293, R295) -/
  sent : Option W64
  ver : Bool
deriving DecidableEq, Repr

/-- A connection of a context (R308, R309, R314). -/
structure Conn where
  ctxid : W32
  cn : Fin 16
  state : ConnState
  epoch : BitVec 4
  node : BitVec 12
  gcw : Nat
  ge : Bool
  notify : Nat
  gets : W32
  window : Nat
  next : W32
  out : List Message
  cause : Nat
  /-- bytes acknowledged since the last halving, and when the present state was entered -/
  acked : Nat
  since : W64
deriving DecidableEq, Repr

/-- The landing record of a message (R310): length, bitmap of packets received, byte count, and whether a packet carried
MARK (R309). -/
structure Landing where
  seq : W32
  len : Nat
  bitmap : BitVec 256
  count : Nat
  mark : Bool
deriving DecidableEq, Repr

/-- An OPEN that has not been answered (R295, R308): its node, its connection, the VER under which it was injected, and when. -/
structure OpenReq where
  node : BitVec 12
  ctxid : W32
  cn : Fin 16
  ver : Bool
  since : W64
deriving DecidableEq, Repr

/-- An inbound connection record (R308, R311, R315): the notify offset, its landing records and the SEQs of its completed
window, latest first. -/
structure Inbound where
  src : BitVec 12
  ctxid : W32
  cn : Fin 16
  epoch : BitVec 4
  notify : Nat
  landing : List Landing
  done : List W32
deriving DecidableEq, Repr

/-- An `rma.get` in progress (R316): the message that asks for it, its number and class among the engine's commands, its
AS range of n packets, whether it counts into GCW, and the packets that have landed. -/
structure Get where
  own : Owner
  cn : Fin 16
  seq : W32
  no : Nat
  e : Fin 2
  pri : Nat
  off : Nat
  n : Nat
  cw : Bool
  got : BitVec 256
deriving DecidableEq, Repr

/-- The torus fabric as the package sees it (R286 to R318). -/
structure Fabric where
  /-- ROUTECFG's DROP, EXT and VER (R294) -/
  drop : W16
  ext : BitVec 12
  ver : Bool
  /-- packets held in the router (R293, R294) -/
  held : List (Packet × Option LinkNo)
  /-- RTIDX, and the entries of the two routing-table copies that differ from the boot routes (R294) -/
  rtidx : W64
  table0 : Table W64
  table1 : Table W64
  /-- the extents for which the boot routes were made -/
  bootExt : BitVec 12
  /-- FABCFG and RWROOT (R301, R307) -/
  fabcfg : W64
  rwroot : W64
  /-- ordered paths by destination, and the next sequence number expected from each source (R303) -/
  paths : Table OPath
  expect : Table W32
  /-- (class, VC) of each link that the neighbour has turned OFF (R289) -/
  off : List (LinkNo × Fin 3 × Bool)
  conns : List Conn
  opens : List OpenReq
  inbound : List Inbound
  gets : List Get
  /-- reduce tags by home slice: CTXID, PHSEQ, index, POFF of the slice's last 256 sources (R312) -/
  tags : Table (List (W32 × Nat × Nat × Nat))
  /-- packets that the loopback has brought to their own node and that are still to be performed (R301) -/
  loop : List Packet
  /-- ordered packets outside the ordered paths that wait for those of the old VER (R295) -/
  later : List Packet
  /-- translation faults at this home that its MMP is to service (R301) -/
  faults : List FaultRec
deriving DecidableEq, Repr

/-- A leaf held in the TLBs (R149): address-space id, space or PM, page number and page size as a power
of two, and the PTE. Tile entries are held under their tensor id. -/
structure TlbEnt where
  asid : BitVec 12
  /-- 0, 2, 3 a space of R144; 4 PM; 5 the tile table of tensor `tid` -/
  space : Nat
  tid : Nat
  page : Nat
  log : Nat
  pte : W64
  /-- of a tile entry, the BASE of the tensor-table entry under which it was loaded -/
  base : Nat
deriving DecidableEq, Repr

/-- A pager registered for a region of an address space (R161, R162): the environment it runs in, the region as first and
last address, its queue of fault records as a ring of physical memory with the next slot, and its launch word's physical
address and value (log 42). -/
structure Pager where
  env : Nat
  asid : BitVec 12
  space : Nat
  lo : W64
  hi : W64
  queue : Nat
  slots : Nat
  next : Nat
  launch : Nat
  word : W64
deriving DecidableEq, Repr

/-- A context resident on a core other than the modelled one: what placement needs of it (R390, R392). -/
structure OtherCtx where
  core : BitVec 8
  slot : Bool
  ctxid : W32
  iprio : BitVec 3
  preempt : Bool
  regions : List Region
  task : Task
  /-- its save area, where it has one of its own (R385) -/
  area : Option Nat
  /-- its identity, and, where it is a companion, the CTXID of its gang's leader (R397) -/
  id : Ident
  lead : Option W32
deriving DecidableEq, Repr

/-- A context that has left its core (R393, R401). -/
structure Saved where
  task : Task
  id : Ident
  regions : List Region
  /-- the core it left -/
  core : BitVec 8
  /-- held until the MMP completes the fault (R163), and since when it has been resumable -/
  fault : Option FaultRec
  since : W64
  /-- it may resume only on the core it left (R401) -/
  bound : Bool
  /-- the context slot it left, and how far its read-only path had to see (R169, R397) -/
  slot : Bool
  roBound : Nat
  /-- late traps to be delivered when it resumes (R221, R278), and the state of its engines (R227) -/
  late : List Late
  cpDone : Vector W32 2
  cpErr : Vector (BitVec 4) 2
  /-- completion words to be written when it resumes: buffer, logical offset, value, whether it is added (R218) -/
  words : List (Bool × Nat × W32 × Bool)
  /-- the declared inputs of the phase before its checkpoint, and those that its rerun waits for (R219) -/
  inputs : List Xfer
  refetch : List Xfer
  reruns : Nat
  /-- PHSEQ, and whether a part of its image lies in the core's emergency area (R399) -/
  phseq : W64
  spilled : Bool
  /-- the core and context of each of its pre-emption requests (R392) -/
  req : List (BitVec 8 × Bool)
  /-- how many engine commands it has issued (R204, R216) -/
  engCount : Nat
  /-- its companions, where it is a gang's leader that they have joined (R397) -/
  mates : List OtherCtx
deriving DecidableEq, Repr

/-- A dispatcher (R387 to R389): launch-word addresses and environments, its queue in order of queueing,
and the source that each priority level serves first. -/
structure Dispatcher where
  lwaddr : Vector W64 16
  lwenv : Vector W64 16
  queue : List Task
  rr : Vector Nat 8
  /-- launch words whose COUNT was not zero when last looked at, and the launches taken down (R387) -/
  seen : Vector Bool 16
  work : Vector (Option (Nat × W64)) 16
deriving DecidableEq, Repr

/-- The states of a stream (R407). -/
inductive StreamState where
  | reserved | active | resident | evicting | evicted | loading
deriving DecidableEq, Repr

/-- An entry of the stream context table that is not FREE (R406): OFF in bytes, HALF in 256-byte units,
the physical frames of HOME, IDLE in µs, LAST, the context that owns it. -/
structure Stream where
  state : StreamState
  core : BitVec 8
  off : Nat
  half : Nat
  home : List Nat
  homeVa : W64
  idle : W32
  last : W64
  owner : W32
  /-- the half that is front, while no context holds the region (R156) -/
  flip : Bool
deriving DecidableEq, Repr

/-- A grove's rejoin line (R398): the former members as core ids and the bits set so far. -/
structure RejoinLine where
  members : List (BitVec 8)
  bits : List (BitVec 8)
  /-- the modelled core's `rejoin` group -/
  at_ : Option W64
  /-- the former members on other cores, by CTXID -/
  mates : List W32
deriving DecidableEq, Repr

/-- A core's health as CORESTAT shows it, beside the lists of retired and cullet cores (R285). -/
structure Health where
  errcnt : W16
  katf : Bool
  narc : BitVec 2
  narv : BitVec 2
deriving DecidableEq, Repr

/-- The package: its memory, its shared tables and its system registers (R21, R409). -/
structure Pkg where
  /-- committed memory by physical address: HBM, pool and host (R145, R152) -/
  mem : Cells
  /-- what each committed write replaced, latest first, for the read-only path (R169) -/
  hist : List Cells
  tlb : List TlbEnt
  /-- NODEID (R13) and the extents of the torus -/
  nodeid : BitVec 12
  /-- the six links (R13, R297) -/
  links : Vector Link 6
  fab : Fabric
  /-- the pool ports that are up (R165, R422) -/
  poolUp : Vector Bool 2
  /-- DEVTIME and the part of a nanosecond a slewing clock has counted, in sixteenths (R405) -/
  devtime : W64
  slewFrac : Nat
  /-- how many nanoseconds of a slew remain (R405, R423) -/
  slew : Nat
  /-- the host port is up (R422) -/
  hostUp : Bool
  /-- FREEZEMAX (R163) -/
  freezemax : W64
  /-- the group table (R16, R396); an absent entry has not been filled -/
  groups : Table GroupRec
  /-- core groups with a notified abort (R394) -/
  aborted : List (BitVec 8)
  /-- the early-arrival queue: barrier arrivals for group entries not yet filled (R207) -/
  early : List (BitVec 8 × BitVec 8)
  /-- the dispatchers of the two dies (R10) -/
  disp : Vector Dispatcher 2
  saved : List Saved
  others : List OtherCtx
  /-- the next context identity (R410) -/
  nextCtx : Nat
  /-- save areas taken, as addresses, and the free count of each environment (R385, R399) -/
  areas : List (Nat × Nat)
  /-- the faults of the dispatchers' reads for which the MMP has found no mapping (R384, R388) -/
  unbacked : List FaultRec
  /-- the stream context table (R406); an absent entry is FREE -/
  streams : Table Stream
  /-- SCTCFG, ABORTRING, HALTMASK0 to 3, EMERGBASE (R410) -/
  sctcfg : W64
  abortring : W64
  haltmask : Vector W64 4
  emergbase : W64
  /-- cores out of service, and cores in the cullet (R283, R285) -/
  retired : List (BitVec 8)
  cullet : List (BitVec 8)
  /-- the health of each core; an absent entry is sound -/
  health : Table Health
  /-- pinned frames with their pin counts, and pages being migrated (R164) -/
  pins : Table Nat
  migrating : List Nat
  /-- the registered pagers (R161) -/
  pagers : List Pager
  /-- pager tickets outstanding, each with the fault it serves and the frame reserved for it (R162) -/
  tickets : List (W32 × FaultRec × Nat)
  /-- the rejoin line of the modelled core's grove (R398) -/
  rejoin : Option RejoinLine
  /-- the channel table (R319); an absent entry is unused -/
  chans : Table Chan
  attn : Attn
  /-- DEVID.CORES (R1) -/
  cores : Byte
  hbm : Hbm
  ksu : Ksu
  boot : Boot
  /-- held in reset by a boot that stopped or an alarm (R424, R427) -/
  inReset : Bool
  /-- the arithmetic clock in sixteenths of 1.75 GHz (R430) -/
  clock16 : Nat
  /-- the next PPS edge is ignored; nanoseconds still to be gained, and their part in sixteenths (R423) -/
  ppsSkip : Bool
  gain : Nat
  gainFrac : Nat
  /-- retraining attempts of the pool ports and of the host port (R422) -/
  poolTries : Vector Nat 2
  hostTries : Nat
deriving DecidableEq, Repr

/-! ## The group in progress -/

/-- Why a group cannot issue in this step (R43, R47, R49, R50): data first, then other resources. -/
inductive Stall where
  | data | resource
deriving DecidableEq, Repr

/-- What a group finds when it starts (R8, R40): its context, its core and its package. A slot samples these, whatever the
lower slots of its group have done. -/
structure Start where
  c : Ctx
  core : Core
  pkg : Pkg
deriving DecidableEq, Repr

/-- The group whose slots are being run (R38 to R45): its start, the address after it, its literal, the
slot being run, the slot's rank among the V and C slots (R39), the length of the store buffer at its start
(R40), the target of a transfer (R99), and how a slot ended it. -/
structure Grp where
  pc : W64
  nx : W64
  lit : Option (BitVec 28)
  idx : Nat
  emitted : Bool
  mark : Nat
  /-- engine commands numbered below it were issued before the group (R246) -/
  eng : Nat
  target : Option W64
  trap : Option (Cause × W64)
  stall : Option Stall
  /-- residency entries whose reload a waiting operation starts (R270, R276) -/
  reload : List Nat
  /-- a V slot waits for a routine (R245) -/
  race : Bool
  /-- an operation waits for room on a channel (R330) -/
  depth : Option (BitVec 8)
  /-- a slot would take in poison that lies at an address (R184) -/
  poison : Option W64
  /-- what the group found when it started; none outside a group -/
  start : Option Start
deriving DecidableEq, Repr

/-! ## The machine -/

/-- The machine. `c` is the context whose slots are being run and `c2` the core's other context; `slot1`
says that `c` is context 1. -/
structure State where
  c : Ctx
  c2 : Ctx
  slot1 : Bool
  grp : Grp
  core : Core
  pkg : Pkg
  /-- what the package's other units and the outside do next, in order -/
  agenda : List Instr
  /-- counts the steps taken: the index of the next free value (log 2) -/
  tick : Nat
deriving DecidableEq, Repr

/-- Why the machine stops with a fault. -/
inductive Fault where
  /-- An access to a physical address that the package never produces (R145), raised where a page table,
  a tile table or an environment record names one. Safe: the machine stops. -/
  | noSuchPhysicalAddress
deriving DecidableEq, Repr

/-- Why a step is refused. -/
inductive Refusal where
  /-- The step named has no meaning yet; `exec` answers so. Safe: the machine stops. -/
  | notModelled (mnemonic : String)
deriving DecidableEq, Repr

/-! ## Reset -/

/-- A shadow set as a task starts (R211). -/
def Shadow.zero : Shadow where
  stid := 0
  sc := Vector.replicate 4 0
  dtid := 0
  dc := Vector.replicate 4 0
  bx := Vector.replicate 4 1
  conv := 0
  ctl := 0
  fill := 0
  fm := false

/-- A context slot that holds no context, with every register at the value a task starts with (R386). -/
def Arch.zero : Arch where
  pc := 0
  s := Vector.replicate 32 0
  sTaint := 0
  v := Vector.replicate 32 0
  vTaint := 0
  p := (Vector.replicate 32 0).set 0 (BitVec.allOnes 64)
  pUni := 1
  pTaint := 0
  m := Vector.replicate 8 0
  mTaint := 0
  asd := ⟨0, 0, false⟩
  mxstat := 0
  opens := []
  marks := []
  shadow := Vector.replicate 2 Shadow.zero
  lc := Vector.replicate 4 0
  fmt := 0
  sticky := 0
  lanes := 0
  phbudget := 0x10000
  trcause := 0
  trmask := 0
  trpc := 0
  traddr := 0
  trvec := 0
  inh := false
  iprio := 0
  ptroot := 0
  ptpool := 0
  pthost := 0
  pmroot := 0
  tensbase := 0
  pmsize := 0
  asid := 0
  quota := 0

/-- The identity of an empty context slot. -/
def Ident.none : Ident where
  ctxid := 0
  task := Option.none
  prio := 0
  gids := []
  prt := false
  link := false
  sup := false
  strm := false
  stream := 0
  entry := 0
  savebase := 0
  ctxenv := 0
  strinfo := 0
  grank := 0
  gsize := 0
  twin := false
  dec := false
  lease := false
  unfit := false

/-- An empty context slot. -/
def Ctx.empty : Ctx where
  live := false
  id := Ident.none
  a := Arch.zero
  ck := Arch.zero
  gc := 0
  phseq := 0
  emitted := false
  reruns := 0
  clock := 0
  pend := []
  latch := Vector.replicate 8 { val := none, taint := false }
  held := none
  ops := []
  fences := 0
  engFence := 0
  engCount := 0
  buf := []
  regions := []
  backAs := []
  backCb := []
  roBound := 0
  dirty := []
  tdefs := []
  cpDone := Vector.replicate 2 0
  cpErr := Vector.replicate 2 0
  inputs := []
  prevInputs := []
  mxq := []
  routine := none
  kats := []
  tmq := []
  named := []
  rTouch := []
  raced := false
  compare := none
  twinMiss := false
  waits := []
  chStall := []
  frozen := none
  frozenSince := 0
  unmapped := []
  late := []
  preempt := false
  commit := none
  saving := false
  clearing := false

/-- No group is being run. -/
def Grp.none : Grp where
  pc := 0
  nx := 0
  lit := Option.none
  idx := 0
  emitted := false
  mark := 0
  eng := 0
  target := Option.none
  trap := Option.none
  stall := Option.none
  reload := []
  race := false
  depth := Option.none
  poison := Option.none
  start := Option.none

/-- The core with nothing in its buffers (R157). -/
def Core.zero : Core where
  as := []
  cb := []
  bad := []
  recv := Vector.replicate 6 { words := [], rd := 0 }
  send := Vector.replicate 6 []
  peerOff := Vector.replicate 6 false
  flowOff := Vector.replicate 6 false
  bars := []
  member := Vector.replicate 4 none
  starve := 0
  boost := false
  emerg := []
  xq := []
  served := []
  res := []
  mstore := []
  routines := []
  maps := []
  mapData := []

/-- A dispatcher with no slot armed. -/
def Dispatcher.zero : Dispatcher where
  lwaddr := Vector.replicate 16 0
  lwenv := Vector.replicate 16 0
  queue := []
  rr := Vector.replicate 8 0
  seen := Vector.replicate 16 false
  work := Vector.replicate 16 none

/-- The fabric after power-on, with FABCFG as R307 gives it. -/
def Fabric.zero : Fabric where
  drop := 0
  ext := 0
  ver := false
  held := []
  rtidx := 0
  table0 := []
  table1 := []
  bootExt := 0
  fabcfg := 0x00000014000003E8
  rwroot := 0
  paths := []
  expect := []
  off := []
  conns := []
  opens := []
  inbound := []
  gets := []
  tags := []
  loop := []
  later := []
  faults := []

/-- No sequence, no request, an empty prefix table. -/
def Attn.zero : Attn where
  seqs := []
  units := []
  queue := []
  gathering := []
  heldq := []
  asks := []
  folds := []
  early := []
  apps := []
  pmts := []
  rebals := []
  tiers := []
  next := 0
  px := []
  stamp := 0

/-- HBM with nothing logged (R426). -/
def Hbm.zero : Hbm where
  ecclog := 0
  linklog := 0
  lanemap := 0
  retiredPc := []
  spares := []
  retries := []
  cellErrs := []
  swapping := []
  cells := []
  parity := []
  waiting := []
  fetched := []
  poison := []

/-- The key store unit with its policies as R427 gives them. -/
def Ksu.zero : Ksu where
  idKey := true
  attKey := true
  keyHash := 0
  counter := 0
  policy := ⟨#[.halt, .halt, .halt, .erase], rfl⟩
  log := []

/-- A boot record of a device that has not booted. -/
def Boot.zero : Boot where
  status := Vector.replicate 8 0
  failed := 0
  count := 0
  images := []
  nonce := none
  report := none

/-- The package after power-on, before its boot: FREEZEMAX as R163 gives it, the other registers 0. -/
def Pkg.zero : Pkg where
  mem := []
  hist := []
  tlb := []
  nodeid := 0
  links := Vector.replicate 6 { crcerr := 0, replay := 0, lanes := 0, conn := false, state := .off, streak := 0 }
  fab := Fabric.zero
  poolUp := Vector.replicate 2 false
  devtime := 0
  slewFrac := 0
  slew := 0
  hostUp := true
  freezemax := 0xC350
  groups := []
  aborted := []
  early := []
  disp := Vector.replicate 2 Dispatcher.zero
  saved := []
  others := []
  nextCtx := 0
  areas := []
  unbacked := []
  streams := []
  sctcfg := 0
  abortring := 0
  haltmask := Vector.replicate 4 0
  emergbase := 0
  retired := []
  cullet := []
  health := []
  pins := []
  migrating := []
  pagers := []
  tickets := []
  rejoin := none
  chans := []
  attn := Attn.zero
  cores := 0xFF
  hbm := Hbm.zero
  ksu := Ksu.zero
  boot := Boot.zero
  inReset := false
  clock16 := 16
  ppsSkip := false
  gain := 0
  gainFrac := 0
  poolTries := Vector.replicate 2 0
  hostTries := 0

/-- The machine right after reset: no context resident, no memory written, every register at its reset
value (R148, R163, R410; log 11 for those the spec gives none). -/
def State.reset : State where
  c := Ctx.empty
  c2 := Ctx.empty
  slot1 := false
  grp := Grp.none
  core := Core.zero
  pkg := Pkg.zero
  agenda := []
  tick := 0

end Sys2Proof.Machine
end

