-- ==== Sys2Proof/Machine/Bits.lean ====
section
/-! DEFINITION. Byte order, memory cells, tables with keys, and the packing of elements into registers
(R5, R70, R71). -/

namespace Sys2Proof.Machine

/-! ## Bytes -/

/-- The n bytes of a number, least significant first (R5). -/
def bytesOf : Nat → Nat → List Byte
  | 0, _ => []
  | n + 1, x => BitVec.ofNat 8 x :: bytesOf n (x / 256)

/-- The number whose bytes, least significant first, are given (R5). -/
def ofBytes : List Byte → Nat
  | [] => 0
  | b :: r => b.toNat + 256 * ofBytes r

/-- The list of the first n naturals from a base. -/
def span (base n : Nat) : List Nat := (List.range n).map (base + ·)

/-! ## Memory cells -/

/-- The byte at an address; an unlisted address reads as 0 (log 10). -/
def getByte (m : Cells) (a : Nat) : Byte :=
  match m with
  | [] => 0
  | (k, b) :: r => if k = a then b else getByte r a

/-- Memory with one byte replaced, in canonical form: a byte of 0 is not listed (log 10). -/
def putByte (m : Cells) (a : Nat) (x : Byte) : Cells :=
  match m with
  | [] => if x = 0 then [] else [(a, x)]
  | (k, b) :: r =>
    if a < k then (if x = 0 then (k, b) :: r else (a, x) :: (k, b) :: r)
    else if a = k then (if x = 0 then r else (a, x) :: r)
    else (k, b) :: putByte r a x

/-- The n bytes from an address. -/
def getBytes (m : Cells) (a n : Nat) : List Byte := (span a n).map (getByte m)

/-- Memory with each listed byte replaced, in list order, so that a later pair for one address wins. -/
def putCells (m : Cells) (w : Cells) : Cells := w.foldl (fun m c => putByte m c.1 c.2) m

/-- The pairs that store a list of bytes from an address upward. -/
def cellsAt (a : Nat) : List Byte → Cells
  | [] => []
  | b :: r => (a, b) :: cellsAt (a + 1) r

/-- Memory with the bytes from an address replaced. -/
def putBytes (m : Cells) (a : Nat) (bs : List Byte) : Cells := putCells m (cellsAt a bs)

/-- The little-endian number in n bytes from an address (R5). -/
def getNum (m : Cells) (a n : Nat) : Nat := ofBytes (getBytes m a n)

/-- Memory with the bytes of a range set to 0 (R157). -/
def zeroRange (m : Cells) (a n : Nat) : Cells := m.filter (fun c => ¬ (a ≤ c.1 ∧ c.1 < a + n))

/-- The listed bytes of a range. -/
def cellsIn (m : Cells) (a n : Nat) : Cells := m.filter (fun c => a ≤ c.1 ∧ c.1 < a + n)

/-- The canonical form of memory: addresses strictly rising and no byte of 0 listed (log 10). -/
def Memory.wf (m : Cells) : Bool := decide (m.Pairwise (fun x y => x.1 < y.1)) && m.all (fun c => decide (c.2 ≠ 0))

/-! ## Tables -/

/-- The entry at a key. -/
def look {β : Type} (t : Table β) (k : Nat) : Option β :=
  match t with
  | [] => none
  | (j, x) :: r => if j = k then some x else look r k

/-- The table with the entry at a key replaced, keys in rising order. -/
def put {β : Type} (t : Table β) (k : Nat) (x : β) : Table β :=
  match t with
  | [] => [(k, x)]
  | (j, y) :: r =>
    if k < j then (k, x) :: (j, y) :: r
    else if k = j then (k, x) :: r
    else (j, y) :: put r k x

/-- The table without a key's entry. -/
def del {β : Type} (t : Table β) (k : Nat) : Table β := t.filter (fun e => e.1 ≠ k)

/-! ## Bits and elements -/

/-- Bits `[h:l]` of a number (R67). -/
def bitsOf (x h l : Nat) : Nat := x / 2 ^ l % 2 ^ (h + 1 - l)

/-- A field of a doubleword as a number. -/
def fieldOf (x : W64) (h l : Nat) : Nat := bitsOf x.toNat h l

/-- x with the bits selected by the mask taken from y. -/
def mix {n : Nat} (mask x y : BitVec n) : BitVec n := (x &&& ~~~mask) ||| (y &&& mask)

/-- Element j of width w in a register (R70). -/
def elem (v : VWord) (w j : Nat) : Nat := (v.toNat >>> (w * j)) % 2 ^ w

/-- The register whose elements of width w, element 0 first, are given (R70). -/
def packElems (w : Nat) : List Nat → Nat
  | [] => 0
  | x :: r => x % 2 ^ w + 2 ^ w * packElems w r

/-- The register made of the elements f 0, f 1, … of width w (R70). -/
def packV (w n : Nat) (f : Nat → Nat) : VWord := BitVec.ofNat 2048 (packElems w ((List.range n).map f))

/-- Lane i of a register (R70). -/
def lane (v : VWord) (i : Nat) : W32 := BitVec.ofNat 32 (elem v 32 i)

/-- The register whose 32-bit lanes are f 0 to f 63. -/
def ofLanes (f : Nat → W32) : VWord := packV 32 64 (fun i => (f i).toNat)

/-- The register bits that a set of lanes covers. -/
def laneBits (k : LaneMask) : VWord :=
  packV 32 64 (fun i => if k.getLsbD i then 0xFFFFFFFF else 0)

/-- The lane mask whose bit i is f i. -/
def maskOf (f : Nat → Bool) : LaneMask :=
  BitVec.ofNat 64 (packElems 1 ((List.range 64).map (fun i => (f i).toNat)))

/-- x with its low n bits read as two's complement (R67). -/
def sextN (n x : Nat) : Int := if x % 2 ^ n < 2 ^ (n - 1) then (x % 2 ^ n : Nat) else (x % 2 ^ n : Nat) - (2 ^ n : Nat)

/-- An integer as the n-bit two's complement number that it wraps to. -/
def wrapN (n : Nat) (x : Int) : Nat := (x % (2 ^ n : Nat)).toNat

/-- The 64-bit value sign-extended from bit n − 1 (R67). -/
def sext64 (n x : Nat) : W64 := BitVec.ofInt 64 (sextN n x)

/-- The number of zero bits below the lowest set bit, or w where none is set below w. -/
def ctzN : Nat → Nat → Nat
  | 0, _ => 0
  | n + 1, x => if x % 2 = 1 then 0 else 1 + ctzN n (x / 2)

/-- The number of set bits among the low w. -/
def popN : Nat → Nat → Nat
  | 0, _ => 0
  | n + 1, x => x % 2 + popN n (x / 2)

/-- The number of zero bits above the highest set bit of a w-bit number. -/
def clzN (w x : Nat) : Nat := if x = 0 then w else w - 1 - Nat.log2 x

/-- x rounded down to a multiple of n. -/
def alignDown (x n : Nat) : Nat := x / n * n

/-- ⌈x / n⌉. -/
def ceilDiv (x n : Nat) : Nat := (x + n - 1) / n

/-- The index of the first element that meets a condition. -/
def findIdx {α : Type} (p : α → Bool) : List α → Option Nat
  | [] => none
  | x :: r => if p x then some 0 else (findIdx p r).map (· + 1)

/-- The list with element i replaced, where it has one. -/
def setAt {α : Type} : List α → Nat → α → List α
  | [], _, _ => []
  | _ :: r, 0, y => y :: r
  | x :: r, n + 1, y => x :: setAt r n y

/-- CRC-64 with the ECMA-182 polynomial (R282): one bit, one byte, a list of bytes, the highest bit first. -/
def crc64Bit (c : W64) : W64 := if c.msb then (c <<< 1) ^^^ 0x42F0E1EBA9EA3693 else c <<< 1
def crc64Byte (c : W64) (b : Byte) : W64 := (List.range 8).foldl (fun c _ => crc64Bit c) (c ^^^ (b.zeroExtend 64 <<< 56))
def crc64 (l : List Byte) : W64 := l.foldl crc64Byte 0

end Sys2Proof.Machine
end

