-- ==== Sys2Proof/Machine/Num.lean ====
section
/-! DEFINITION. Number formats, exact values and rounding (R68 to R80). -/

namespace Sys2Proof.Machine

/-! ## Formats -/

/-- A floating-point format: exponent and fraction bits, whether it has infinities, NaNs (E4M3 has one NaN
and no infinity, E2M1 neither) and whether FMT.DN applies to it (R68, R79). -/
structure FpFmt where
  ebits : Nat
  mbits : Nat
  hasInf : Bool
  hasNan : Bool
  flush : Bool
deriving DecidableEq, Repr

/-- What a format code denotes: a floating-point format, or an integer format of a width (R68, R70). -/
inductive FKind where
  | fp (f : FpFmt)
  | int (w : Nat)
  | uint (w : Nat)
deriving DecidableEq, Repr

def fpFP64 : FpFmt := ⟨11, 52, true, true, true⟩
def fpFP32 : FpFmt := ⟨8, 23, true, true, true⟩
def fpFP16 : FpFmt := ⟨5, 10, true, true, true⟩
def fpBF16 : FpFmt := ⟨8, 7, true, true, true⟩
def fpE4M3 : FpFmt := ⟨4, 3, false, true, false⟩
def fpE5M2 : FpFmt := ⟨5, 2, true, true, false⟩
def fpE2M1 : FpFmt := ⟨2, 1, false, false, false⟩

/-- What each format denotes (R68, R70, R75); SP2 bytes are read by R74 and count here as unsigned. -/
def kindOf : Fmt → FKind
  | .fp32 => .fp fpFP32
  | .fp16 => .fp fpFP16
  | .bf16 => .fp fpBF16
  | .e4m3 => .fp fpE4M3
  | .e5m2 => .fp fpE5M2
  | .e2m1 => .fp fpE2M1
  | .fp64 => .fp fpFP64
  | .int32 => .int 32
  | .int16 => .int 16
  | .int8 => .int 8
  | .int4 => .int 4
  | .uint32 => .uint 32
  | .uint16 => .uint 16
  | .uint8 => .uint 8
  | .sp2 => .uint 8

/-- The width of an element in bits (R75). -/
def widthOf (f : Fmt) : Nat :=
  match kindOf f with
  | .fp k => 1 + k.ebits + k.mbits
  | .int w => w
  | .uint w => w

/-- The exponent bias (R68). -/
def FpFmt.bias (f : FpFmt) : Nat := 2 ^ (f.ebits - 1) - 1

/-- The exponent of the smallest normal (R68). -/
def FpFmt.emin (f : FpFmt) : Int := 1 - (f.bias : Int)

/-- The bits of the largest finite magnitude (R68): E4M3 loses one code to its NaN, E2M1 none. -/
def FpFmt.maxBits (f : FpFmt) : Nat :=
  if f.hasInf then (2 ^ f.ebits - 1) * 2 ^ f.mbits - 1
  else if f.hasNan then 2 ^ (f.ebits + f.mbits) - 2
  else 2 ^ (f.ebits + f.mbits) - 1

/-- The bits of an infinity's magnitude. -/
def FpFmt.infBits (f : FpFmt) : Nat := (2 ^ f.ebits - 1) * 2 ^ f.mbits

/-- The canonical NaN (R69); E2M1, which has none, takes +0. -/
def FpFmt.nanBits (f : FpFmt) : Nat :=
  if f.hasInf then f.infBits + 2 ^ (f.mbits - 1)
  else if f.hasNan then 2 ^ (f.ebits + f.mbits) - 1
  else 0

/-- The sign bit, at its place. -/
def FpFmt.signBit (f : FpFmt) (neg : Bool) : Nat := if neg then 2 ^ (f.ebits + f.mbits) else 0

/-! ## Values -/

/-- An exact magnitude with its sign: man · 2^exp, or, where `more` holds, a value strictly between that
and (man + 1) · 2^exp. -/
structure Exact where
  neg : Bool
  man : Nat
  exp : Int
  more : Bool
deriving DecidableEq, Repr

/-- What an element's bits denote (R68, R69). -/
inductive Val where
  | nan (signalling : Bool)
  | inf (neg : Bool)
  | num (x : Exact)
deriving DecidableEq, Repr

/-- The exact value of an integer. -/
def Exact.ofInt (x : Int) : Exact := ⟨x < 0, x.natAbs, 0, false⟩

/-- A zero of a sign. -/
def Exact.zero (neg : Bool) : Exact := ⟨neg, 0, 0, false⟩

/-- The value is zero. -/
def Exact.isZero (x : Exact) : Bool := x.man = 0 && !x.more

/-- The value with its sign flipped. -/
def Exact.flip (x : Exact) : Exact := { x with neg := !x.neg }

/-- The value times 2^k. -/
def Exact.scale (x : Exact) (k : Int) : Exact := { x with exp := x.exp + k }

/-- The signed integer man over the unit 2^e, for an exponent e no larger than the value's. -/
def Exact.units (x : Exact) (e : Int) : Int :=
  let n : Nat := x.man * 2 ^ (x.exp - e).toNat
  if x.neg then -(n : Int) else n

/-- The exact sum of two values with no open part. A zero sum of operands of opposite sign takes the sign
`rdn` gives it; a sum of zeros of one sign keeps it (R77). -/
def Exact.add (rdn : Bool) (x y : Exact) : Exact :=
  let e := min x.exp y.exp
  let n := x.units e + y.units e
  if n = 0 then Exact.zero (if x.neg = y.neg then x.neg else rdn)
  else ⟨n < 0, n.natAbs, e, false⟩

/-- The exact product of two values with no open part (R77: a zero keeps its sign). -/
def Exact.mul (x y : Exact) : Exact := ⟨x.neg != y.neg, x.man * y.man, x.exp + y.exp, false⟩

/-- The quotient to 128 bits beyond the divisor's length, with its remainder as the open part; the
divisor is not zero. -/
def Exact.div (x y : Exact) : Exact :=
  let k := 128 + Nat.log2 y.man
  let n := x.man * 2 ^ k
  ⟨x.neg != y.neg, n / y.man, x.exp - y.exp - k, n % y.man ≠ 0⟩

/-- ⌊√n⌋, one result bit for each count of fuel: the largest r + part whose square is at most n. -/
def isqrtFrom : Nat → Nat → Nat → Nat
  | 0, _, r => r
  | k + 1, n, r => if (r + 2 ^ k) * (r + 2 ^ k) ≤ n then isqrtFrom k n (r + 2 ^ k) else isqrtFrom k n r

/-- ⌊√n⌋. -/
def isqrt (n : Nat) : Nat := isqrtFrom (Nat.log2 n / 2 + 1) n 0

/-- The square root of a value that is not negative, to more than 96 bits, with the rest as the open
part. -/
def Exact.sqrt (x : Exact) : Exact :=
  let k : Nat := 200 + (if (x.exp % 2 = 0) then 0 else 1)
  let n := x.man * 2 ^ k
  let r := isqrt n
  ⟨x.neg, r, (x.exp - k) / 2, r * r ≠ n⟩

/-- x < y for values with no open part. -/
def Exact.lt (x y : Exact) : Bool :=
  let e := min x.exp y.exp
  x.units e < y.units e

/-- x = y in value, zeros of both signs being equal. -/
def Exact.eqv (x y : Exact) : Bool :=
  let e := min x.exp y.exp
  x.units e = y.units e

/-- ⌊log₂⌋ of a nonzero magnitude. -/
def Exact.log (x : Exact) : Int := (Nat.log2 x.man : Int) + x.exp

/-! ## Reading elements -/

/-- What a floating-point element's bits denote, subnormals read as they are (R68). -/
def FpFmt.value (f : FpFmt) (b : Nat) : Val :=
  let neg := b / 2 ^ (f.ebits + f.mbits) % 2 = 1
  let mag := b % 2 ^ (f.ebits + f.mbits)
  let e := mag / 2 ^ f.mbits
  let fr := mag % 2 ^ f.mbits
  if f.hasInf && e = 2 ^ f.ebits - 1 then
    if fr = 0 then .inf neg else .nan (fr < 2 ^ (f.mbits - 1))
  else if !f.hasInf && f.hasNan && mag = 2 ^ (f.ebits + f.mbits) - 1 then .nan false
  else if e = 0 then .num ⟨neg, fr, f.emin - f.mbits, false⟩
  else .num ⟨neg, fr + 2 ^ f.mbits, (e : Int) - f.bias - f.mbits, false⟩

/-- The element as an operand of a vector instruction: with DN = 1 a subnormal reads as zero of its sign
(R79). -/
def FpFmt.operand (f : FpFmt) (dn : Bool) (b : Nat) : Val :=
  match f.value b with
  | .num x => if dn && f.flush && x.man < 2 ^ f.mbits then .num (Exact.zero x.neg) else .num x
  | v => v

/-- The integer an element of an integer format denotes (R70). -/
def intValue (k : FKind) (b : Nat) : Int :=
  match k with
  | .int w => sextN w b
  | .uint w => (b % 2 ^ w : Nat)
  | .fp _ => 0

/-- The range of an integer format (R70). -/
def intRange : FKind → Int × Int
  | .int w => (-(2 ^ (w - 1) : Nat), (2 ^ (w - 1) : Nat) - 1)
  | .uint w => (0, (2 ^ w : Nat) - 1)
  | .fp _ => (0, 0)

/-! ## Flags -/

/-- The sticky flags (R120). -/
def fNV : Flags6 := 1
def fDZ : Flags6 := 2
def fOF : Flags6 := 4
def fUF : Flags6 := 8
def fNX : Flags6 := 16
def fSAT : Flags6 := 32

/-! ## Rounding -/

/-- How an element is rounded: the mode with the stepped lane state of STO, FMT.SAT and FMT.DN. -/
structure Rounding where
  mode : RMode
  x : W32
  sat : Bool
  dn : Bool
deriving DecidableEq, Repr

/-- The magnitude in units of 2^q, rounded by R77 and R80, and whether that is inexact. -/
def roundUnits (r : Rounding) (x : Exact) (q : Int) : Nat × Bool :=
  let sh := q - x.exp
  if sh ≤ 0 then
    let n := x.man * 2 ^ (-sh).toNat
    let up := match r.mode with
      | .rne | .rtz | .sto => false
      | .rup => x.more && !x.neg
      | .rdn => x.more && x.neg
    (n + up.toNat, x.more)
  else
    let k := sh.toNat
    let n := x.man / 2 ^ k
    let rem := x.man % 2 ^ k
    let part : Bool := rem ≠ 0 || x.more
    let half := 2 ^ (k - 1)
    let up : Bool := match r.mode with
      | .rne => rem > half || (rem = half && (x.more || n % 2 = 1))
      | .rtz => false
      | .rup => part && !x.neg
      | .rdn => part && x.neg
      | .sto => r.x.toNat < rem * 2 ^ 32 / 2 ^ k
    (n + up.toNat, part)

/-- What an overflow delivers (R78). -/
def overflowTo (f : FpFmt) (r : Rounding) (neg : Bool) : Nat × Flags6 :=
  let m := f.signBit neg + f.maxBits
  let inf := if f.hasInf then f.signBit neg + f.infBits else f.nanBits
  if r.sat || !f.hasNan then (m, fSAT ||| fNX)
  else
    let b := match r.mode with
      | .rne | .sto => inf
      | .rtz => m
      | .rup => if neg then m else inf
      | .rdn => if neg then inf else m
    (b, fOF ||| fNX)

/-- RoundTo: the bits of the rounded value and the flags it raises (R77 to R79). -/
def roundTo (f : FpFmt) (r : Rounding) (x : Exact) : Nat × Flags6 :=
  if x.isZero then (f.signBit x.neg, 0)
  else
    let e := x.log
    let qmin := f.emin - f.mbits
    let q := max (e - f.mbits) qmin
    let (n, inexact) := roundUnits r x q
    let (nu, _) := roundUnits r x (e - f.mbits)
    let tiny : Bool := e < f.emin && Nat.log2 nu + (e - f.mbits) < f.emin
    let mag := (q - qmin).toNat * 2 ^ f.mbits + n
    if mag > f.maxBits then overflowTo f r x.neg
    else if r.dn && f.flush && n ≠ 0 && mag < 2 ^ f.mbits then (f.signBit x.neg, fUF ||| fNX)
    else
      (f.signBit x.neg + mag, (if inexact then fNX else 0) ||| (if tiny && inexact then fUF else 0))

/-- The value rounded to an integer, and whether that is inexact (R83). -/
def roundInt (r : Rounding) (x : Exact) : Int × Bool :=
  let (n, i) := roundUnits r x 0
  (if x.neg then -(n : Int) else n, i)

/-- One step of a lane state (R80). -/
def stepLane (x : W32) : W32 := if x.getLsbD 0 then (x >>> 1) ^^^ 0x80200003 else x >>> 1

/-- The lane states that a seed gives (R80). -/
def seedLanes (seed : W32) : VWord :=
  ofLanes (fun i =>
    let x := seed ^^^ (BitVec.ofNat 32 i * 0x9E3779B9)
    if x = 0 then 1 else x)

/-! ## Delivery of floating-point results -/

/-- The result of an arithmetic operation on floating-point values: a NaN, with or without invalid, or an
infinity, or a value to round, with the flags it raises already. -/
inductive FRes where
  | nan (flags : Flags6)
  | inf (neg : Bool) (flags : Flags6)
  | val (x : Exact) (flags : Flags6)
deriving DecidableEq, Repr

/-- The bits and flags that a result delivers in a format (R69, R78, R79). An infinity in E4M3 is delivered
as R78 converts one. -/
def deliver (f : FpFmt) (r : Rounding) : FRes → Nat × Flags6
  | .nan fl => (f.nanBits, fl)
  | .inf neg fl =>
    if f.hasInf then (f.signBit neg + f.infBits, fl)
    else if r.sat || !f.hasNan then (f.signBit neg + f.maxBits, fl ||| fSAT)
    else (f.nanBits, fl ||| fNV)
  | .val x fl => let (b, g) := roundTo f r x; (b, fl ||| g)

end Sys2Proof.Machine
end

