-- ==== Sys2Proof/Machine/Operands.lean ====
section
/-! DEFINITION. How a slot reads what it names: guards, scalar and vector operands, the literal, latches
and link FIFOs (R30 to R34, R93, R95), and the ways a slot can stop short of an effect. -/

namespace Sys2Proof.Machine

/-- What stops a slot: a trap with its TRADDR where the spec states one (else it is a free value, log 12), a
stall (R43, R49), a translation fault that freezes the context (R161), or a fault of the machine. -/
inductive Stop where
  | trap (c : Cause) (addr : Option W64)
  | stall (why : Stall)
  | freeze (f : FaultRec)
  | fault (f : Fault)
  /-- a matrix check waits for a residency, whose reload it starts where there is one to start (R236) -/
  | resid (start : Option Nat)
  /-- a V slot waits for matrix work that may touch its bytes (R245) -/
  | matrix
  /-- an operation waits for room on a channel (R330) -/
  | depth (ch : BitVec 8)
  /-- the data that a slot reads holds poison (R184) -/
  | poison (va : W64)
deriving DecidableEq, Repr

/-- A value, or what stops the slot. -/
abbrev Res (α : Type) := Except Stop α

/-- The slot traps; the spec states no TRADDR. -/
def trapWith {α : Type} (c : Cause) : Res α := .error (.trap c none)

/-- The slot traps with a stated TRADDR. -/
def trapAt {α : Type} (c : Cause) (addr : W64) : Res α := .error (.trap c (some addr))

/-- The group waits for data it reads or writes (R47, R50). -/
def waitData {α : Type} : Res α := .error (.stall .data)

/-- The group waits for another resource (R43, R49). -/
def waitRoom {α : Type} : Res α := .error (.stall .resource)

/-- The slot goes on only where a condition holds; else it traps. -/
def need (b : Bool) (c : Cause) : Res Unit := if b then .ok () else trapWith c

/-! ## FMT -/

/-- The format of FMT.VT (R76); a code that is not legal there reads as FP32, which `fmt.set` never
leaves. -/
def vtOf (fmt : W64) : Fmt :=
  match fmt.toNat % 16 with
  | 1 => .fp16 | 2 => .bf16 | 3 => .e4m3 | 4 => .e5m2 | 6 => .fp64 | 7 => .int32 | 8 => .int16
  | 9 => .int8 | 11 => .uint32 | 12 => .uint16 | 13 => .uint8 | _ => .fp32

/-- The mode of FMT.RM (R76). -/
def rmOf (fmt : W64) : RMode :=
  match fieldOf fmt 6 4 with
  | 1 => .rtz | 2 => .rup | 3 => .rdn | 4 => .sto | _ => .rne

/-- FMT.SAT and FMT.DN (R76). -/
def satOf (fmt : W64) : Bool := fmt.getLsbD 7
def dnOf (fmt : W64) : Bool := fmt.getLsbD 8

/-! ## Predicates and guards -/

/-- The lane bits of a predicate; p0 is constant true (R93). -/
def predLanes (c : Ctx) (r : Reg) : LaneMask := if r = 0 then BitVec.allOnes 64 else c.a.p[r]

/-- The uniform bit of a predicate; p0's is 1 (R93). -/
def predUni (c : Ctx) (r : Reg) : Bool := r = 0 || c.a.pUni.getLsbD r

/-- The taint of a predicate; p0 has none (R95, R118). -/
def predTaint (c : Ctx) (r : Reg) : Bool := r ≠ 0 && c.a.pTaint.getLsbD r

/-- A predicate whose 64 lane bits are all equal (R93). -/
def predUniform (c : Ctx) (r : Reg) : Bool := predLanes c r = BitVec.allOnes 64 || predLanes c r = 0

/-- The predicate that a 4-bit guard or a 3-bit guard names (R94). -/
def guardReg (g : Fin 16) : Reg := Fin.castLE (by decide) g
def guardRegV (g : Fin 8) : Reg := Fin.castLE (by decide) g

/-- The uniform guard of S, BA and C slots is on (R34, R94). -/
def guardOn (g : Fin 16) (s : State) : Bool := predUni s.c (guardReg g)

/-- The lanes a V slot is enabled in (R34). -/
def vGuard (g : Fin 8) (s : State) : LaneMask := predLanes s.c (guardRegV g)

/-! ## Scoreboard -/

/-- A scoreboarded result still to come for a destination. One that was issued before a trap keeps the groups of the handler
waiting too: they read what the interrupted stream would have read (R50, R52). -/
def awaits (c : Ctx) (d : Dst) : Bool :=
  c.ops.any (fun o => match o.dst with
    | .none => false
    | .scalar e => e = d
    | .vector _ _ => false)

/-- The same for a vector register or a latch of vector kind. -/
def awaitsV (c : Ctx) (d : Dst) : Bool :=
  c.ops.any (fun o => match o.dst with
    | .none | .scalar _ => false
    | .vector e _ => e = d)

/-- A scoreboarded result is to be pushed to FIFO n: a group that would push there waits for it (R50). -/
def awaitsFifo (c : Ctx) (n : LinkNo) : Bool := awaits c (.fifo n) || awaitsV c (.fifo n)

/-- A scoreboarded result is to come for latch n, of either kind. -/
def awaitsLatch (c : Ctx) (n : LatchNo) : Bool := awaits c (.latch n) || awaitsV c (.latch n)

/-! ## Link FIFOs -/

/-- A slot that takes effect names FIFO n: it needs the lease, a connected link, and a link that has not
failed (R298, R299). -/
def checkLink (n : LinkNo) (s : State) : Res Unit :=
  if !s.c.id.lease || !(s.pkg.links[n]).conn then trapWith .linkNone
  else if (s.pkg.links[n]).state = .failed then trapAt .linkLost (BitVec.ofNat 64 n)
  else .ok ()

/-- The machine with core or package state replaced. -/
def State.withC (s : State) (c : Ctx) : State := { s with c := c }
def State.withCore (s : State) (k : Core) : State := { s with core := k }
def State.withPkg (s : State) (p : Pkg) : State := { s with pkg := p }

/-- The machine as the running group found it (R8, R40): what a slot samples of the units, and what it waits for, is what
stood there when its group started, whatever the group's lower slots have done since. -/
def atStart (s : State) : State :=
  match s.grp.start with
  | some g => { s with c := g.c, core := g.core, pkg := g.pkg }
  | none => s

/-- k words popped from the receive queue of link n: the words, and the machine with the read position
moved (R33, R191, R300). A pop waits for words that have not arrived. -/
def popWords (n : LinkNo) (k : Nat) (s : State) : Res (List W64 × State) := do
  checkLink n s
  let q := s.core.recv[n]
  if q.words.length < q.rd + k then waitData
  else .ok ((q.words.drop q.rd).take k,
    s.withCore { s.core with recv := s.core.recv.set n { q with rd := q.rd + k } })

/-! ## Scalar operands -/

/-- The literal as a 64-bit integer: the payload sign-extended from bit 27 (R31). -/
def litInt (p : BitVec 28) : W64 := p.signExtend 64

/-- A scalar operand, with its taint and the machine after any pop (R30 to R33). -/
def srcS (x : Src) (s : State) : Res (W64 × Bool × State) :=
  match x with
  | .reg r => if awaits (atStart s).c (.reg r) then waitData else .ok (s.c.a.s[r], s.c.a.sTaint.getLsbD r, s)
  | .latch n =>
    if awaitsLatch (atStart s).c n then waitData
    else match (s.c.latch[n]).val with
      | some (.scalar v) => .ok (v, (s.c.latch[n]).taint, s)
      | _ => trapWith .latchInvalid
  | .zero => .ok (0, false, s)
  | .lit =>
    match s.grp.lit with
    | some p => .ok (litInt p, false, s)
    | none => trapWith .illegal
  | .ident => .ok (Config.coreId.zeroExtend 64, false, s)
  | .fifo n => do
    let (w, s) ← popWords n 1 s
    .ok (w.headD 0, false, s)
  | .one => .ok (1, false, s)
  | .mone => .ok (BitVec.allOnes 64, false, s)

/-- A scalar register read as a source (the data register of a store, the old value of `bfi`). -/
def srcReg (r : Reg) (s : State) : Res (W64 × Bool) :=
  if awaits (atStart s).c (.reg r) then waitData else .ok (s.c.a.s[r], s.c.a.sTaint.getLsbD r)

/-- Two scalar operands, A before B (R33). -/
def srcSS (a b : Src) (s : State) : Res (W64 × W64 × Bool × State) := do
  let (x, t, s) ← srcS a s
  let (y, u, s) ← srcS b s
  .ok (x, y, t || u, s)

/-! ## Vector operands -/

/-- The rounding under which a constant operand is converted: RNE and the current FMT.SAT and FMT.DN (R31). -/
def constRounding (fmt : W64) : Rounding := ⟨.rne, 0, satOf fmt, dnOf fmt⟩

/-- An exact value as a constant element of a format (R30, R31). -/
def constElem (fmt : W64) (f : Fmt) (x : Exact) : Nat :=
  match kindOf f with
  | .fp k => (roundTo k (constRounding fmt) x).1
  | .int w => wrapN w (x.units (min 0 x.exp))
  | .uint w => wrapN w (x.units (min 0 x.exp))

/-- The literal as an element of a format (R31): FP64 takes the binary32 value exactly, whatever FMT.DN. -/
def litElem (fmt : W64) (f : Fmt) (p : BitVec 28) : Nat :=
  match kindOf f with
  | .int w => wrapN w p.toInt
  | .uint w => wrapN w p.toInt
  | .fp k =>
    let b := p.toNat * 16
    if f = .fp32 then b
    else (deliver k (constRounding fmt) (match fpFP32.operand (dnOf fmt && f ≠ .fp64) b with
      | .nan _ => .nan 0
      | .inf neg => .inf neg 0
      | .num x => .val x 0)).1

/-- The number of elements of a format in a register (R70). -/
def countOf (f : Fmt) : Nat := 2048 / widthOf f

/-- The lane that holds element j of a format: for FP64 the even lane, which owns it (R70). -/
def laneOf (f : Fmt) (j : Nat) : Nat := j * widthOf f / 32

/-- A vector operand read for elements of a format, with its taint and the machine after any pop. -/
def srcV (f : Fmt) (x : Src) (s : State) : Res (VWord × Bool × State) :=
  let w := widthOf f
  let n := countOf f
  match x with
  | .reg r => if awaitsV (atStart s).c (.reg r) then waitData else .ok (s.c.a.v[r], s.c.a.vTaint.getLsbD r, s)
  | .latch k =>
    if awaitsLatch (atStart s).c k then waitData
    else match (s.c.latch[k]).val with
      | some (.vector v) => .ok (v, (s.c.latch[k]).taint, s)
      | _ => trapWith .latchInvalid
  | .zero => .ok (0, false, s)
  | .lit =>
    match s.grp.lit with
    | some p => .ok (packV w n (fun _ => litElem s.c.a.fmt f p), false, s)
    | none => trapWith .illegal
  | .ident => .ok (packV w n (fun j => constElem s.c.a.fmt f (.ofInt (laneOf f j))), false, s)
  | .fifo k => do
    let (ws, s) ← popWords k 32 s
    .ok (BitVec.ofNat 2048 (packElems 64 (ws.map BitVec.toNat)), false, s)
  | .one => .ok (packV w n (fun _ => constElem s.c.a.fmt f (.ofInt 1)), false, s)
  | .mone => .ok (packV w n (fun _ => constElem s.c.a.fmt f (.ofInt (-1))), false, s)

/-- A vector register read as a source: an accumulator or the data of a store. -/
def srcVReg (r : Reg) (s : State) : Res (VWord × Bool) :=
  if awaitsV (atStart s).c (.reg r) then waitData else .ok (s.c.a.v[r], s.c.a.vTaint.getLsbD r)

/-- What the lanes not computed hold after a partial write over a latch of scalar kind: free values, since R32 speaks of an
invalid latch and of a vector one only (log 27). -/
def freeLanes (s : State) : VWord := packV 8 256 (fun j => (Config.freeByte s.tick j).toNat)

/-- The taint of what a vector destination holds (R118). -/
def oldTaint (d : Dst) (s : State) : Bool :=
  match d with
  | .reg r => s.c.a.vTaint.getLsbD r
  | .latch n => (s.c.latch[n]).taint
  | .fifo _ => false

/-- Some element of a format is not enabled, so that its part of the destination keeps what it held (R34, R114). -/
def someOff (f : Fmt) (k : LaneMask) : Bool := (List.range (countOf f)).any (fun j => !k.getLsbD (laneOf f j))

/-- The taint that a result takes from the destination lanes it keeps, which its group read (R34, R118, log 73). -/
def keptTaint (f : Fmt) (k : LaneMask) (d : Dst) (s : State) : Bool := oldTaint d s && someOff f k

/-- What a vector destination holds as its slot's group reads it: what the lanes not computed keep. A latch that
is invalid, and a push, supply zero (R32 to R34). -/
def oldV (d : Dst) (s : State) : Res VWord :=
  match d with
  | .reg r => if awaitsV (atStart s).c (.reg r) then waitData else .ok s.c.a.v[r]
  | .latch n =>
    if awaitsLatch (atStart s).c n then waitData
    else match (s.c.latch[n]).val with
      | some (.vector v) => .ok v
      | some (.scalar _) => .ok (freeLanes s)
      | none => .ok 0
  | .fifo _ => .ok 0

end Sys2Proof.Machine
end

