-- ==== Sys2Proof/Machine/Ops.lean ====
section
/-! DEFINITION. The named operations on the machine: writing results, letting them fall due, taking a trap
and returning from it, aborting, rolling back and ending a context. -/

namespace Sys2Proof.Machine

/-! ## Answers -/

/-- The causes' codes (R404). -/
def causeCode : Cause → Nat
  | .illegal => 0x01 | .bundleForm => 0x02 | .latchInvalid => 0x03 | .nonuniformBranch => 0x04
  | .format => 0x05 | .priv => 0x06 | .swtrap => 0x07 | .address => 0x08 | .misalign => 0x09
  | .bounds => 0x0A | .tensor => 0x0B | .access => 0x0C | .unmapped => 0x0D | .poolRegion => 0x0E
  | .bufferFull => 0x0F | .liveReduction => 0x10 | .phaseBudget => 0x11 | .barrier => 0x12
  | .copyPoison => 0x13 | .residencyAbsent => 0x14 | .staleResidency => 0x15 | .tileOpen => 0x16
  | .katFail => 0x17 | .quota => 0x18 | .canopyFull => 0x19 | .linkNone => 0x1A | .linkLost => 0x1B
  | .nodeUnreachable => 0x1C | .connState => 0x1D | .channel => 0x1E | .staleGeneration => 0x1F
  | .kvPos => 0x20 | .kvFull => 0x21 | .pmt => 0x22 | .mapLost => 0x23 | .mapState => 0x24
  | .mapFull => 0x25 | .fuse => 0x26 | .stream => 0x27 | .groupAbort => 0x28 | .uncontained => 0x30
  | .uncorrectable => 0x31 | .doubleTrap => 0x32

/-- A result issued before all of a list takes its place by due group, before those due with it (R48). -/
def insertPend (p : Pend) : List Pend → List Pend
  | [] => [p]
  | q :: r => if p.due ≤ q.due then p :: q :: r else q :: insertPend p r

/-- Pending results in the order in which they take effect: by due group, then by issue (R48). -/
def sortPend : List Pend → List Pend
  | [] => []
  | p :: r => insertPend p (sortPend r)

/-- `Pred` values: the uniform bit is the AND of the lane bits (R93). -/
def allLanes (k : LaneMask) : Bool := k = BitVec.allOnes 64

/-- A bit of a register number's taint word. -/
def setBit {n : Nat} (x : BitVec n) (i : Nat) (b : Bool) : BitVec n :=
  let one : BitVec n := 1
  if b then x ||| (one <<< i) else x &&& ~~~(one <<< i)

/-- The fields a `sys.wr` to a context register replaces (R148, R180, R268, R410, R419). -/
def sysregMask (n : BitVec 12) : W64 :=
  match n.toNat with
  | 0x001 => 0x00000000FFFFFFFF
  | 0x004 => 0xFFFFFFFFFFFFFFFF
  | 0x007 => 0xFFFFFFFFFFFFFFFD
  | 0x020 => 0x0000FF00FFFF0000
  | 0x021 => 0x0000000000000FFF
  | 0x022 | 0x023 | 0x024 | 0x025 => 0x000FFFFFFFFE0001
  | 0x026 => 0xFFFFFFFFFFFF0000
  | 0x027 => 0x0000FFFFFFFF0000
  | _ => 0

/-- A context register written through `sys.wr` (R419). -/
def writeSysreg (a : Arch) (n : BitVec 12) (x : W64) : Arch :=
  let x := x &&& sysregMask n
  match n.toNat with
  | 0x001 => { a with phbudget := x }
  | 0x004 => { a with trpc := x }
  | 0x007 => { a with trvec := x }
  | 0x020 => { a with quota := x }
  | 0x021 => { a with asid := x }
  | 0x022 => { a with ptroot := x }
  | 0x023 => { a with ptpool := x }
  | 0x024 => { a with pthost := x }
  | 0x025 => { a with pmroot := x }
  | 0x026 => { a with tensbase := x }
  | 0x027 => { a with pmsize := x }
  | _ => a

/-- The context with its architectural state replaced. -/
def Ctx.withA (c : Ctx) (a : Arch) : Ctx := { c with a := a }

/-- The machine with the context's architectural state replaced. -/
def State.withA (s : State) (a : Arch) : State := s.withC (s.c.withA a)

/-- A predicate written whole: its uniform bit follows from its lanes; p0 is not written (R93). -/
def writePred (a : Arch) (r : Reg) (k : LaneMask) (t : Bool) : Arch :=
  if r = 0 then a
  else { a with p := a.p.set r k, pUni := setBit a.pUni r (allLanes k), pTaint := setBit a.pTaint r t }

/-- A shadow-set field group takes its new value (R222 to R225). -/
def writeShadow (h : Shadow) : ShadowW → Shadow
  | .src tid c0 c1 => { h with stid := tid, sc := (((Vector.replicate 4 0).set 0 c0).set 1 c1) }
  | .srcHi c2 c3 => { h with sc := (h.sc.set 2 c2).set 3 c3 }
  | .dst tid c0 c1 => { h with dtid := tid, dc := (((Vector.replicate 4 0).set 0 c0).set 1 c1) }
  | .dstHi c2 c3 => { h with dc := (h.dc.set 2 c2).set 3 c3 }
  | .shp b0 b1 => { h with bx := (((Vector.replicate 4 1).set 0 b0).set 1 b1) }
  | .shpHi b2 b3 => { h with bx := (h.bx.set 2 b2).set 3 b3 }
  | .conv x => { h with conv := x }
  | .ctl x => { h with ctl := x }
  | .fill x fm => { h with fill := x, fm := fm }

/-- A buffer offset lies in a plain region (R156). -/
def plainAt (rs : List Region) (cb : Bool) (off : Nat) : Bool :=
  rs.any (fun r => r.cb = cb && !r.phased && r.base ≤ off && off < r.base + r.size)

/-- The bytes of plain regions among some written ones are remembered as written in this phase (R156). -/
def noteDirty (cb : Bool) (w : Cells) (c : Ctx) : Ctx :=
  { c with dirty := c.dirty ++ ((w.filter (fun x => plainAt c.regions cb x.1)).map (fun x => (cb, x.1))) }

/-- A byte that a V slot reads or writes: unspecified where it should have been kept apart from a routine that has touched it
(R245). -/
def racedByte (s : State) (cb : Bool) (off : Nat) (b : Byte) : Byte :=
  if s.c.raced && s.c.rTouch.any (fun r => r.1 = cb && r.2.1 ≤ off && off < r.2.1 + r.2.2) then Config.freeByte s.tick off
  else b

/-- Bytes of a buffer hold no poison any longer: they have been written anew (R184). -/
def Core.cleanse (k : Core) (cb : Bool) (p : Nat → Bool) : Core := { k with bad := k.bad.filter (fun b => !(b.1 = cb && p b.2)) }

/-- A pending result takes effect (R47). -/
def applyEff (e : Eff) (s : State) : State :=
  let a := s.c.a
  match e with
  | .s r x t => s.withA { a with s := a.s.set r x, sTaint := setBit a.sTaint r t }
  | .v r x t => s.withA { a with v := a.v.set r x, vTaint := setBit a.vTaint r t }
  | .p r k t => s.withA (writePred a r k t)
  | .latS n x t => s.withC { s.c with latch := s.c.latch.set n ⟨some (.scalar x), t⟩ }
  | .latV n x t => s.withC { s.c with latch := s.c.latch.set n ⟨some (.vector x), t⟩ }
  | .push n ws =>
    if s.pkg.links[n].state = .failed then s else s.withCore { s.core with send := s.core.send.set n (s.core.send[n] ++ ws) }
  | .lc n x => s.withA { a with lc := a.lc.set n x }
  | .m n x t => s.withA { a with m := a.m.set n x, mTaint := setBit a.mTaint n t }
  | .shadow e w => s.withA { a with shadow := a.shadow.set e (writeShadow a.shadow[e] w) }
  | .tdef t b => s.withC { s.c with tdefs := put s.c.tdefs t b }
  | .fmt x mask =>
    s.withA { a with fmt := x, lanes := if mask.toNat / 2 ^ 32 = 0 then a.lanes else seedLanes (x.extractLsb' 32 32) }
  | .sticky x => s.withA { a with sticky := a.sticky ||| x }
  | .stclr x => s.withA { a with sticky := a.sticky &&& ~~~x }
  | .sysreg n x => s.withA (writeSysreg a n x)
  | .prio x => s.withA { a with iprio := x }
  | .buf cb w =>
    let w := w.map (fun x => (x.1, racedByte s cb x.1 x.2))
    let s := s.withC (noteDirty cb w s.c)
    let k := s.core.cleanse cb (fun a => w.any (fun c => c.1 = a))
    if cb then s.withCore { k with cb := putCells k.cb w } else s.withCore { k with as := putCells k.as w }

/-- The results due at or before the context's group count take effect (R47, R48). -/
def applyDue (s : State) : State :=
  let due := s.c.pend.filter (fun p => p.due ≤ s.c.gc)
  let rest := s.c.pend.filter (fun p => s.c.gc < p.due)
  let s := (sortPend due).foldl (fun s p => applyEff p.eff s) s
  s.withC { s.c with pend := rest }

/-- The effect is a latch write (R32, R51). -/
def Eff.isLatch : Eff → Bool
  | .latS _ _ _ | .latV _ _ _ => true
  | .s _ _ _ | .v _ _ _ | .p _ _ _ | .push _ _ | .lc _ _ | .m _ _ _ | .shadow _ _ | .tdef _ _
  | .fmt _ _ | .sticky _ | .stclr _ | .sysreg _ _ | .prio _ | .buf _ _ => false

/-- Every pending result takes effect, latch writes discarded, as at a commit (R51). What is held for a handler does not,
where the task ends in it (log 101). -/
def takeAllPending (s : State) : State :=
  let l := (sortPend s.c.pend).filter (fun p => !p.eff.isLatch)
  let s := l.foldl (fun s p => applyEff p.eff s) s
  s.withC { s.c with pend := [] }

/-! ## Scheduling results -/

/-- A result that falls due L groups after the slot's own (R47). -/
def sched (e : Eff) (l : Nat) (s : State) : State :=
  s.withC { s.c with pend := s.c.pend ++ [⟨s.c.gc + l, e⟩] }

/-- The words already reserved for pushes to link n: by results pending or held, and by loads (R299). -/
def reserved (c : Ctx) (n : LinkNo) : Nat :=
  let one (p : Pend) : Nat := match p.eff with
    | .push k ws => if k = n then ws.length else 0
    | _ => 0
  let held := match c.held with | none => [] | some h => h.pend
  ((c.pend ++ held).map one).sum + (c.ops.map (fun o => match o.dst with
    | .scalar (.fifo k) => if k = n then 1 else 0
    | .vector (.fifo k) _ => if k = n then 32 else 0
    | _ => 0)).sum

/-- The phase becomes emitted (R178). -/
def emit (s : State) : State := s.withC { s.c with emitted := true }

/-- A push of k words through FIFO n is admitted: the link is checked, the words are reserved in the
64-word send queue, and the phase is emitted (R33, R299). -/
def admitPush (n : LinkNo) (k : Nat) (s : State) : Res State := do
  checkLink n s
  if 64 < (s.core.send[n]).length + reserved s.c n + k then waitRoom
  else .ok (emit s)

/-- Write(D, x, L) for a scalar destination (R29, R47, R67). -/
def writeS (d : Dst) (x : W64) (t : Bool) (l : Nat) (s : State) : Res State :=
  match d with
  | .reg r => if awaits (atStart s).c (.reg r) then waitData else .ok (sched (.s r x t) l s)
  | .latch n => if awaitsLatch (atStart s).c n then waitData else .ok (sched (.latS n x t) l s)
  | .fifo n => do
    let s ← if awaitsFifo (atStart s).c n then waitData else admitPush n 1 s
    .ok (sched (.push n [x]) l s)

/-- A register as a scalar destination. -/
def writeReg (r : Reg) (x : W64) (t : Bool) (l : Nat) (s : State) : Res State := writeS (.reg r) x t l s

/-- The 32 words of a vector item, word k from lanes 2k and 2k + 1 (R299). -/
def vWords (x : VWord) : List W64 := (List.range 32).map (fun k => BitVec.ofNat 64 (elem x 64 k))

/-- Write(D, x, L) for a vector destination, x holding every lane (R34, R47). -/
def writeV (d : Dst) (x : VWord) (t : Bool) (l : Nat) (s : State) : Res State :=
  match d with
  | .reg r => if awaitsV (atStart s).c (.reg r) then waitData else .ok (sched (.v r x t) l s)
  | .latch n => if awaitsLatch (atStart s).c n then waitData else .ok (sched (.latV n x t) l s)
  | .fifo n => do
    let s ← if awaitsFifo (atStart s).c n then waitData else admitPush n 32 s
    .ok (sched (.push n (vWords x)) l s)

/-- Write to a predicate (R93). -/
def writeP (r : Reg) (k : LaneMask) (t : Bool) (l : Nat) (s : State) : State := sched (.p r k t) l s

/-! ## The residency table -/

/-- No owner. -/
def Owner.none : Owner where
  ctxid := 0
  sup := false
  asid := 0
  ptroot := 0
  ptpool := 0
  pthost := 0
  phseq := 0

/-- The running context as the owner of a command. -/
def ownerOf (s : State) : Owner where
  ctxid := s.c.id.ctxid
  sup := s.c.id.sup
  asid := s.c.a.asid
  ptroot := s.c.a.ptroot
  ptpool := s.c.a.ptpool
  pthost := s.c.a.pthost
  phseq := s.c.phseq

/-- A free entry of a generation (R263). -/
def ResEnt.freed (gen : W16) : ResEnt where
  state := .free
  tenant := 0
  gen := gen
  desc := 0
  pins := 0
  src := Option.none
  len := 0
  space := false
  watched := false
  watch := []
  frames := []
  seen := false
  used := 0
  usecnt := 0
  data := []
  own := Owner.none
  transparent := false
  routine := none

/-- Entry i of the residency table; one never used is free with GEN = 1 (R263). -/
def resEnt (k : Core) (i : Nat) : ResEnt := (look k.res i).getD (ResEnt.freed 1)

/-- The table with entry i replaced. -/
def setRes (i : Nat) (e : ResEnt) (s : State) : State := s.withCore { s.core with res := put s.core.res i e }

/-- The generation after a freed one: modulo 2^16, skipping 0 (R263). -/
def nextGen (g : W16) : W16 := if g + 1 = 0 then 1 else g + 1

/-- A revoked entry that no checked operation uses any more becomes free (R270). -/
def settleRes (e : ResEnt) : ResEnt := if e.state = .revoked && e.usecnt = 0 then ResEnt.freed (nextGen e.gen) else e

/-- An operation that named entry i has been performed or cancelled (R236, R270). -/
def unuse (s : State) (i : Nat) : State :=
  let e := resEnt s.core i
  setRes i (settleRes { e with usecnt := e.usecnt - 1 }) s

/-- The index of a handle (R263). -/
def handleIndex (h : W64) : Nat := fieldOf h 23 16

/-- The entries that a queued matrix operation uses. -/
def mxUses (o : MxOp) : List Nat :=
  match o.kind with
  | .mmac b _ _ _ => [handleIndex b]
  | .mdrain _ sc _ scl => if scl then [handleIndex sc] else []
  | .mzero _ | .mhada _ _ _ | .call _ _ | .nop => []

/-- The context's matrix work is cancelled (R246). -/
def dropMatrix (s : State) : State :=
  let s := (s.c.mxq.flatMap mxUses).foldl unuse s
  s.withC { s.c with mxq := [], routine := none, kats := [], rTouch := [], raced := false }

/-- The context's matrix operations issued after one of a number are cancelled (R247): a routine with its call. -/
def dropLater (no : Nat) (s : State) : State :=
  let s := ((s.c.mxq.filter (fun o => no < o.no)).flatMap mxUses).foldl unuse s
  s.withC { s.c with
    mxq := s.c.mxq.filter (fun o => o.no ≤ no)
    routine := s.c.routine.filter (fun r => r.no ≤ no)
    kats := s.c.kats.filter (fun k => k.no ≤ no) }

/-- A routine and what follows it are cancelled (R247). -/
def stopRoutine (s : State) : State :=
  match s.c.routine with
  | none => s
  | some r => dropLater r.no (s.withC { s.c with routine := none })

/-- The engine-command numbers of the context's matrix operations that are not performed yet (R204, R244). -/
def matrixNumbers (c : Ctx) : List Nat := c.mxq.map (·.no) ++ (c.routine.map (·.no)).toList ++ c.kats.map (·.no)

/-- A matrix operation with a lower engine-command number is not performed yet. -/
def matrixUnder (c : Ctx) (no : Nat) : Bool := (matrixNumbers c).any (fun n => n < no)

/-- Matrix work of the context is queued or running (R244). -/
def mxBusy (c : Ctx) : Bool := !c.mxq.isEmpty || c.routine.isSome

/-- Matrix work or a token merge command of the context is queued or running (R244, R375). -/
def unitBusy (c : Ctx) : Bool := mxBusy c || !c.tmq.isEmpty

/-- A typed-buffer write that matrix work or a token merge command issued before it has still to read past is held back from
it (R245, R375). -/
def heldBuf (c : Ctx) (p : Pend) : Bool :=
  unitBusy c && match p.eff with | .buf _ _ => true | _ => false

/-! ## Reads of MXSTAT (R262) -/

/-- An outstanding read of MXSTAT takes MXSTAT as the operations before it leave it, once these have been performed; a
known-answer tile among them may still fail, and then corrects it. -/
def latchStat (c : Ctx) (o : MemOp) : MemOp :=
  match o.kind with
  | .stat no opens none =>
    if (c.mxq.map (·.no) ++ (c.routine.map (·.no)).toList).any (fun n => n < no) then o
    else { o with kind := .stat no opens (some c.a.mxstat) }
  | .stat _ _ (some _) | .load _ | .loadRo _ _ _ | .atom _ _ _ _ | .remoteLoad _ _ _ | .remoteAtom _ _ _ _ _ => o
def latchStats (s : State) : State := s.withC { s.c with ops := s.c.ops.map (latchStat s.c) }

/-- A change to the outstanding reads of MXSTAT that were issued after the matrix operation of a number. -/
def onStats (no : Nat) (f : List (Nat × Nat) → Option W64 → List (Nat × Nat) × Option W64) (s : State) : State :=
  s.withC { s.c with ops := s.c.ops.map (fun o => match o.kind with
    | .stat k opens got => if no < k then { o with kind := .stat k (f opens got).1 (f opens got).2 } else o
    | .load _ | .loadRo _ _ _ | .atom _ _ _ _ | .remoteLoad _ _ _ | .remoteAtom _ _ _ _ _ => o) }

/-- A running routine changes the open set, for the context and for the reads of MXSTAT that follow its call (R238, R262). -/
def changeOpens (no : Nat) (f : List (Nat × Nat) → List (Nat × Nat)) (s : State) : State :=
  onStats no (fun o got => (f o, got)) (s.withA { s.c.a with opens := f s.c.a.opens })

/-- Some gets are cancelled: the data that arrives for them is discarded (R185, R228, R316), and their messages no longer
count in their connections' windows (R309). -/
def dropGets (p : Get → Bool) (s : State) : State :=
  let f := s.pkg.fab
  let gone := f.gets.filter p
  let live (c : Conn) (m : Message) : Bool := !(m.get && gone.any (fun g => g.own.ctxid = c.ctxid && g.cn = c.cn && g.seq = m.seq))
  s.withPkg { s.pkg with fab := { f with
    gets := f.gets.filter (fun g => !p g)
    conns := if gone.isEmpty then f.conns else f.conns.map (fun c => { c with out := c.out.filter (live c) }) } }

/-! ## Map slots (R370 to R373) -/

/-- A free map slot of a generation, and slot i of the grove; one never used has GEN = 1 (R370). -/
def MapSlot.freed (gen : W16) : MapSlot := ⟨gen, none, false, 0, 0, 0, false⟩
def mapSlot (k : Core) (i : Nat) : MapSlot := (look k.maps i).getD (MapSlot.freed 1)

/-- A map slot becomes FREE and its GEN advances (R370). -/
def freeMap (m : MapSlot) : MapSlot := MapSlot.freed (nextGen m.gen)

/-- The context's token merge commands are cancelled, and those of its slots that meet a condition become FREE (R372,
R375); a map that a command of the other context still names stays for it (R381). -/
def dropMaps (p : MapSlot → Bool) (s : State) : State :=
  let ctx := s.c.id.ctxid
  let maps := s.core.maps.map (fun m => if m.2.owner = some ctx && p m.2 then (m.1, freeMap m.2) else m)
  let live (d : MapData) : Bool := maps.any (fun m => m.1 = d.slot && m.2.gen = d.gen && m.2.owner.isSome)
    || s.c2.tmq.any (fun t => t.slot = d.slot && t.gen = d.gen)
  { s with
    c := { s.c with tmq := [] }
    core := { s.core with maps := maps, mapData := s.core.mapData.filter live } }

/-! ## Memory of the package -/

/-- Some bytes of a list of ranges. -/
def hitsRange (l : List (Nat × Nat)) (w : Cells) : Bool :=
  w.any (fun c => l.any (fun r => r.1 ≤ c.1 && c.1 < r.1 + r.2))

/-- What a performed write does to a watched residency (R270 to R272): a ready one becomes stale and its watch
drops; during a load it is remembered. -/
def watchWrite (w : Cells) (e : ResEnt) : ResEnt :=
  if !e.watched || !hitsRange e.watch w then e
  else match e.state with
    | .ready => { e with state := .stale, watched := false, watch := [] }
    | .loading => { e with seen := true }
    | .free | .absent | .stale | .revoked => e

/-- Every residency meets a performed write. -/
def watchAll (w : Cells) (k : Core) : Core := { k with res := k.res.map (fun x => (x.1, watchWrite w x.2)) }

/-- Both conditions of R388 hold now. -/
def startable (p : Pkg) (t : Task) : Bool :=
  (!t.timed || t.start.toNat ≤ p.devtime.toNat)
    && t.deps.all (fun d => getNum p.mem d.1 4 = d.2.toNat)

/-- A WAITING task that meets both conditions becomes READY and stays READY (R388). -/
def testReady (p : Pkg) (t : Task) : Task :=
  if t.ready = none && startable p t then { t with ready := some p.devtime } else t

/-- Some bytes lie in the sector of a dependence word of the task. -/
def touchesDep (w : Cells) (t : Task) : Bool := t.deps.any (fun d => w.any (fun c => c.1 / 128 = d.1 / 128))

/-- Every queued task with a dependence word in the sector of a performed write is tested (R388). -/
def testDeps (w : Cells) (p : Pkg) : Pkg :=
  { p with disp := p.disp.map (fun d => { d with queue := d.queue.map (fun t => if touchesDep w t then testReady p t else t) }) }

/-- Committed memory written: the bytes it held before are kept for the read-only path (R169), watched
residencies meet the write (R271), and tasks that wait for a word in it are tested (R388). -/
def writeMem (w : Cells) (s : State) : State :=
  (s.withCore (watchAll w s.core)).withPkg (testDeps w { s.pkg with
    mem := putCells s.pkg.mem w
    hist := w.map (fun c => (c.1, getByte s.pkg.mem c.1)) :: s.pkg.hist })

/-- The new value of an atomic; none where `atom.cas` does not write (R203). -/
def atomNew (op : AtomOp) (x b e : W64) : Option W64 :=
  match op with
  | .add => some (x + b)
  | .min => some (if x.slt b then x else b)
  | .max => some (if x.slt b then b else x)
  | .and => some (x &&& b)
  | .or => some (x ||| b)
  | .xor => some (x ^^^ b)
  | .xchg => some b
  | .cas => if x = e then some b else none

/-- An atomic is performed at the home slice of its address (R203). -/
def performAtom (op : AtomOp) (pa : Nat) (b e : W64) (s : State) : State :=
  match atomNew op (BitVec.ofNat 64 (getNum s.pkg.mem pa 8)) b e with
  | some y => writeMem (cellsAt pa (bytesOf 8 y.toNat)) s
  | none => s

/-- The atomics that the context has issued are immediate: those whose results have not arrived have been performed all the
same when the context ends (R18). -/
def performAtoms (s : State) : State :=
  s.c.ops.foldl (fun s o => match o.kind with
    | .atom op pa b e => performAtom op pa b e s
    | .load _ | .loadRo _ _ _ | .remoteLoad _ _ _ | .remoteAtom _ _ _ _ _ | .stat _ _ _ => s) s

/-! ## The health of cores (R283, R285) -/

/-- A core's health. -/
def healthOf (p : Pkg) (core : BitVec 8) : Health := (look p.health core.toNat).getD ⟨0, false, 0, 0⟩
def setHealth (core : BitVec 8) (h : Health) (p : Pkg) : Pkg := { p with health := put p.health core.toNat h }

/-- One more error of a core is counted; the count saturates (R285). -/
def countError (core : BitVec 8) (p : Pkg) : Pkg :=
  let h := healthOf p core
  setHealth core { h with errcnt := if h.errcnt = 0xFFFF then h.errcnt else h.errcnt + 1 } p

/-- A core is retired: it is given no further work (R283). -/
def retireCore (core : BitVec 8) (p : Pkg) : Pkg :=
  { p with retired := if p.retired.contains core then p.retired else core :: p.retired }

/-- A core joins the cullet; one that is already in it is retired (R283). -/
def joinCullet (core : BitVec 8) (p : Pkg) : Pkg :=
  if p.cullet.contains core then retireCore core p else { p with cullet := core :: p.cullet }

/-- A failure of one unit of a pair narrows the core to the other; a second failure of the pair, or one on a cullet
core, retires it (R283). -/
def narrowTo (core : BitVec 8) (vector : Bool) (failed : Fin 2) (p : Pkg) : Pkg :=
  let h := healthOf p core
  let other : BitVec 2 := if failed = 0 then 2 else 1
  if p.cullet.contains core || (if vector then h.narv ≠ 0 else h.narc ≠ 0) then retireCore core p
  else setHealth core (if vector then { h with narv := other } else { h with narc := other }) p

/-! ## Events -/

/-- An event: it acts where it can and otherwise changes nothing. -/
def event (t : State) : Host.Outcome State Fault Refusal := .next t

/-! ## Ending a context -/

/-- The pin count of a frame (R164). -/
def pinsOf (p : Pkg) (frame : Nat) : Nat := (look p.pins frame).getD 0

/-- Frames pinned, and unpinned, once for each time they are listed (R164). -/
def pinFrames (l : List Nat) (p : Pkg) : Pkg :=
  l.foldl (fun p f => { p with pins := put p.pins f (pinsOf p f + 1) }) p
def unpinFrames (l : List Nat) (p : Pkg) : Pkg :=
  l.foldl (fun p f => { p with pins := if pinsOf p f ≤ 1 then del p.pins f else put p.pins f (pinsOf p f - 1) }) p

/-- The reservations of a context: released with their HOME pins when its phase rolls back or it ends (R407). -/
def dropReserved (ctx : W32) (p : Pkg) : Pkg :=
  let mine (e : Nat × Stream) : Bool := e.2.owner = ctx && e.2.state = .reserved
  let p := unpinFrames ((p.streams.filter mine).flatMap (fun e => e.2.home)) p
  { p with streams := p.streams.filter (fun e => !mine e) }

/-- The streams when a task has ended or been aborted (R407): ACTIVE becomes RESIDENT, with the halves as the task's regions
left them. -/
def streamsAtEnd (ctx : W32) (rs : List Region) (now : W64) (t : Table Stream) : Table Stream :=
  t.map (fun e =>
    if e.2.owner = ctx ∧ e.2.state = .active then
      (e.1, { e.2 with state := .resident, last := now, flip := rs.any (fun r => r.tid = 1024 + e.1 && r.flip) })
    else e)

/-- The cores of a gang's size (R397). -/
def gangCores (g : BitVec 2) : Nat := if g = 2 then 4 else if g = 1 then 2 else 1

/-- A context of another core is a companion of a gang whose leader is the running context (R397). -/
def mateOf (s : State) (o : OtherCtx) : Bool := s.c.live && o.lead = some s.c.id.ctxid

/-- The companions of the running context's gang leave their cores with it (R397, R413). -/
def dropMates (s : State) : State := s.withPkg { s.pkg with others := s.pkg.others.filter (fun o => !mateOf s o) }

/-- The context ends and its slot is free (R394, R413): its save area is freed, its stream is released, and
with the lease go the words of its link queues (R298). -/
def endContext (s : State) : State :=
  let s := dropMates s
  let s := dropMaps (fun _ => true) (dropMatrix s)
  let s := dropGets (fun g => g.own.ctxid = s.c.id.ctxid) s
  let c := s.c
  let core := { s.core with xq := s.core.xq.filter (fun x => x.own.ctxid ≠ c.id.ctxid || bitsOf x.dst.desc 2 1 = 0) }
  let core := if c.id.lease then
      { core with
        recv := Vector.replicate 6 { words := [], rd := 0 }
        send := Vector.replicate 6 [] }
    else core
  let p := dropReserved c.id.ctxid s.pkg
  { s with
    c := Ctx.empty
    core := core
    pkg := { p with
      streams := streamsAtEnd c.id.ctxid c.regions p.devtime p.streams
      areas := s.pkg.areas.filter (fun a => a ≠ (c.id.ctxenv.toNat, c.id.savebase.toNat)) } }

/-- A wait in a barrier, a `ch.wait` or a `ch.recv` of a core group (R394); `chans` gives the core group of each
channel. -/
def waitsOn (gid : BitVec 8) (chans : BitVec 8 → Option (BitVec 8)) (w : Wait) : Bool :=
  match w with
  | .barrier g _ _ => g = gid
  | .chRecv ch => chans ch = some gid
  | .chWait ch _ _ => chans ch = some gid
  | _ => false

/-- A context that waits on the core group will trap GROUP_ABORT at its next group, and that wait is over (R394). -/
def notifyCtx (chans : BitVec 8 → Option (BitVec 8)) (gid : BitVec 8) (c : Ctx) : Ctx :=
  let on := waitsOn gid chans
  let held := match c.held with | some h => h.waits | none => []
  if c.live && (c.waits.any on || held.any on) then
    { c with
      late := c.late ++ [⟨.groupAbort, 0, false⟩]
      waits := c.waits.filter (fun w => !on w)
      held := c.held.map (fun h => { h with waits := h.waits.filter (fun w => !on w) }) }
  else c

/-- The core group is notified of an abort: from now on operations on it trap, and a context of the core
that waits on it traps GROUP_ABORT at its next group (R394). -/
def notifyGroup (chans : BitVec 8 → Option (BitVec 8)) (gid : BitVec 8) (s : State) : State :=
  let member := (s.core.member.toList).contains (some gid)
  let s := s.withPkg { s.pkg with aborted := if s.pkg.aborted.contains gid then s.pkg.aborted else gid :: s.pkg.aborted }
  if member then { s with c := notifyCtx chans gid s.c, c2 := notifyCtx chans gid s.c2 } else s

/-- The 32 bytes of an abort record (R394). -/
def abortRecord (ctxid : W32) (cause : Cause) (core : BitVec 8) (trpc traddr entry : W64) : List Byte :=
  bytesOf 4 ctxid.toNat ++ bytesOf 1 (causeCode cause) ++ [core] ++ bytesOf 2 0
    ++ bytesOf 8 trpc.toNat ++ bytesOf 8 traddr.toNat ++ bytesOf 8 entry.toNat

/-- An abort record is written to the ring and HEAD advances modulo 128 (R394). -/
def writeAbort (rec : List Byte) (s : State) : State :=
  let ring := s.pkg.abortring.toNat
  let head := ring % 128
  let base := ring % 2 ^ 52 / 2 ^ 12 * 2 ^ 12
  let s := writeMem (cellsAt (base + 32 * head) rec) s
  s.withPkg { s.pkg with abortring := BitVec.ofNat 64 (ring - head + (head + 1) % 128) }

end Sys2Proof.Machine
end

