-- ==== Sys2Proof/Machine/Router.lean ====
section
/-! DEFINITION. The router of the package: routes, virtual channels, the packets it holds (R286 to R296). -/

namespace Sys2Proof.Machine

/-- Fields joined: each value at its lowest bit. -/
def joinFields (l : List (Nat × Nat)) : W64 := BitVec.ofNat 64 ((l.map (fun f => f.1 * 2 ^ f.2)).sum)

/-! ## Coordinates -/

/-- Coordinate d of a node id: x, y, z for 0, 1, 2 (R13). -/
def coord (n : BitVec 12) (d : Nat) : Nat := bitsOf n.toNat (11 - 4 * d) (8 - 4 * d)

/-- The extent of dimension d (R294). -/
def extent (ext : BitVec 12) (d : Nat) : Nat := coord ext d + 1

/-- The node lies within the extents (R13, R301). -/
def nodeInExt (ext node : BitVec 12) : Bool := [0, 1, 2].all (fun d => coord node d ≤ coord ext d)

/-- How far the + direction has to go from s to t in dimension d (R291). -/
def ahead (ext s t : BitVec 12) (d : Nat) : Nat := (extent ext d + coord t d - coord s d) % extent ext d

/-- The link of dimension d in a direction (R13). -/
def linkIn (d : Nat) (plus : Bool) : Nat := 2 * d + (if plus then 0 else 1)

/-- A link's dimension and direction. -/
def linkDim (l : LinkNo) : Nat := l.val / 2
def linkPlus (l : LinkNo) : Bool := l.val % 2 = 0

/-! ## Boot routes (R291, R294) -/

/-- The ordered output at a node: the first of x, y, z that differs, the shorter way, an exact half going +; 6 at the
destination, 7 outside the extents. -/
def bootPort (ext self dst : BitVec 12) : Nat :=
  if !nodeInExt ext dst then 7
  else match [0, 1, 2].find? (fun d => coord self d ≠ coord dst d) with
    | none => 6
    | some d => linkIn d (2 * ahead ext self dst d ≤ extent ext d)

/-- The minimal links toward a destination; at an exact half both ways are minimal. -/
def bootMask (ext self dst : BitVec 12) : Nat :=
  if !nodeInExt ext dst then 0
  else ([0, 1, 2].map (fun d =>
    let n := ahead ext self dst d
    if n = 0 then 0
    else (if 2 * n ≤ extent ext d then 2 ^ linkIn d true else 0) + (if extent ext d ≤ 2 * n then 2 ^ linkIn d false else 0))).sum

/-- The routing-table entry of a copy, in the layout of RTDAT; one not written since the boot holds the boot route. -/
def routeEntry (p : Pkg) (copy1 : Bool) (node : BitVec 12) : W64 :=
  match look (if copy1 then p.fab.table1 else p.fab.table0) node.toNat with
  | some x => x
  | none => BitVec.ofNat 64 (bootPort p.fab.bootExt p.nodeid node + 8 * bootMask p.fab.bootExt p.nodeid node)

/-! ## Queues and virtual channels -/

/-- The flits of a packet (R287). -/
def flitsOf (p : Packet) : Nat := 1 + (p.data.length + 31) / 32

/-- The flits queued for a link in one class and virtual channel. -/
def queuedFlits (f : Fabric) (l : LinkNo) (cls : Nat) (vc : Bool) : Nat :=
  ((f.held.filter (fun h => h.2 = some l && h.1.cls = cls && h.1.vc = vc)).map (fun h => flitsOf h.1)).sum

/-- The virtual channel on a link: 1 once the packet has crossed, or now crosses, the dateline of the link's dimension
(R291). -/
def channelOn (ext self src : BitVec 12) (l : LinkNo) : Bool :=
  let d := linkDim l
  let s := coord src d
  let c := coord self d
  if linkPlus l then decide (c < s) || decide (c + 1 = extent ext d) else decide (s < c) || decide (c = 0)

/-- The (class, VC) of a link is ON (R289). -/
def isOn (f : Fabric) (l : LinkNo) (cls : Nat) (vc : Bool) : Bool := !f.off.any (fun o => o.1 = l && o.2.1.val = cls && o.2.2 = vc)

/-- A packet takes multipath routes: a put, or the data of a get, which AUX [63] marks (R288, R292, log 96). -/
def multipath (p : Packet) : Bool := p.kind = 4 || (p.kind = 6 && p.aux.getLsbD 63)

/-- The multipath choice: of the links in the mask that are ON, the one with the fewest queued flits, the lowest number
among equals (R292). -/
def bestLink (p : Pkg) (q : Packet) (mask : Nat) : Option LinkNo :=
  let vc (l : LinkNo) := channelOn p.fab.bootExt p.nodeid q.src l
  let ok := ([0, 1, 2, 3, 4, 5] : List LinkNo).filter (fun l => mask.testBit l.val && isOn p.fab l q.cls (vc l))
  ok.foldl (fun b l => match b with
    | none => some l
    | some k => if queuedFlits p.fab l q.cls (vc l) < queuedFlits p.fab k q.cls (vc k) then some l else some k) none

/-! ## Routing a packet -/

/-- A discarded packet is counted (R293). -/
def dropPacket (p : Pkg) : Pkg :=
  { p with fab := { p.fab with drop := if p.fab.drop = 0xFFFF then p.fab.drop else p.fab.drop + 1 } }

/-- The packet is queued for a link: one more router has forwarded it, and it is marked where the queue is long (R287,
R291, R309). -/
def queueOn (l : LinkNo) (q : Packet) (p : Pkg) : Pkg :=
  let vc := channelOn p.fab.bootExt p.nodeid q.src l
  let q := { q with
    vc := vc
    hops := q.hops + 1
    mark := q.mark || (q.cls ≠ 2 && 32 < queuedFlits p.fab l q.cls vc) }
  { p with fab := { p.fab with held := p.fab.held ++ [(q, some l)] } }

/-- The packet goes its ordered way, or is discarded where the entry names none (R291, R293). -/
def routeOrdered (q : Packet) (p : Pkg) : Pkg :=
  let port := (routeEntry p q.ver q.dst).toNat % 8
  if h : port < 6 then queueOn ⟨port, h⟩ q p else dropPacket p

/-- The router meets a packet (R292, R293): it discards it, delivers it, or queues it; a multipath packet that finds no
permitted link ON waits. The loopback brings a packet to its own node (R301); the receipt of another node's is an event. -/
def routePacket (q : Packet) (s : State) : State :=
  let p := s.pkg
  let e := (routeEntry p q.ver q.dst).toNat
  let here : Bool := q.dst = p.nodeid
  if e % 8 = 7 || (e % 8 = 6 && !here) || (!here && 64 ≤ q.hops) then s.withPkg (dropPacket p)
  else if e % 8 = 6 then
    if q.src = p.nodeid then s.withPkg { p with fab := { p.fab with loop := p.fab.loop ++ [q] } } else s
  else if multipath q then
    match bestLink p q (e / 8 % 64) with
    | some l => s.withPkg (queueOn l q p)
    | none => s.withPkg { p with fab := { p.fab with held := p.fab.held ++ [(q, none)] } }
  else s.withPkg (routeOrdered q p)

/-- PACKET_ROUTE (R293). -/
def execPacketRoute (q : Packet) (s : State) : Host.Outcome State Fault Refusal := event (routePacket q s)

/-- MULTIPATH_FALLBACK: a waiting packet follows its ordered route from here on (R292). -/
def execMultipathFallback (q : Packet) (s : State) : Host.Outcome State Fault Refusal :=
  event (if s.pkg.fab.held.contains (q, none) then
      let f := s.pkg.fab
      s.withPkg (routeOrdered q { s.pkg with fab := { f with held := f.held.erase (q, none) } })
    else s)

/-- A link carries packets (R296). -/
def linkCarries (p : Pkg) (l : LinkNo) : Bool := (p.links[l]).state = .up || (p.links[l]).state = .degraded

/-- The packets whose link carries and is ON leave; those that wait for a permitted link take one (R289, R292). -/
def moveHeld (s : State) : State :=
  let f := s.pkg.fab
  let stay (h : Packet × Option LinkNo) : Bool := match h.2 with
    | some l => !(linkCarries s.pkg l && isOn f l h.1.cls h.1.vc)
    | none => true
  let waiting := f.held.filter (fun h => h.2 = none)
  let s := s.withPkg { s.pkg with fab := { f with held := f.held.filter (fun h => h.2 ≠ none && stay h) } }
  waiting.foldl (fun s h => routePacket h.1 s) s

/-- DRAIN: the packets held under the version that VER does not name (R294). -/
def drainCount (f : Fabric) : Nat := (f.held.filter (fun h => h.1.ver ≠ f.ver)).length

/-! ## Ordered paths -/

/-- The path to a node, with no packet sent yet where it has no entry (R303). -/
def pathTo (f : Fabric) (node : BitVec 12) : OPath := (look f.paths node.toNat).getD ⟨0, [], f.ver, 0, []⟩

/-- An ordered packet toward a node that was injected under the version that VER no longer names is not acknowledged yet:
one of the path, a reduce-store's, or an OPEN (R295, log 98). -/
def oldPending (f : Fabric) (node : BitVec 12) : Bool :=
  let p := pathTo f node
  !(p.unacked.isEmpty || p.ver = f.ver)
    || f.opens.any (fun o => o.node = node && o.ver ≠ f.ver)
    || f.conns.any (fun c => c.node = node && c.out.any (fun m => m.op.isSome && m.sent.isSome && m.ver ≠ f.ver))

/-- k more packets may be sent on the path: at most 256 unacknowledged, and after a change of VER none
until those under the old one are acknowledged (R295, R303). -/
def pathFree (f : Fabric) (node : BitVec 12) (k : Nat) : Bool :=
  (pathTo f node).unacked.length + k ≤ 256 && !oldPending f node

/-- k more packets may be sent now: none waits for its turn on the path. -/
def pathRoom (f : Fabric) (node : BitVec 12) (k : Nat) : Bool := (pathTo f node).wait.isEmpty && pathFree f node k

/-- An ordered packet outside the ordered paths is injected, after those that wait for their version (R295). -/
def sendLater (q : Packet) (s : State) : State :=
  let f := s.pkg.fab
  if oldPending f q.dst || f.later.any (fun x => x.dst = q.dst) then s.withPkg { s.pkg with fab := { f with later := f.later ++ [q] } }
  else routePacket { q with ver := f.ver } s

/-- The packets that waited for their version go on. -/
def flushLater (s : State) : State :=
  s.pkg.fab.later.foldl (fun s q => sendLater q s) (s.withPkg { s.pkg with fab := { s.pkg.fab with later := [] } })

/-- A packet is sent on the ordered path to its destination (R287, R303). -/
def sendOrdered (p : Packet) (s : State) : State :=
  let f := s.pkg.fab
  let q := pathTo f p.dst
  let p := { p with ver := f.ver }
  routePacket p (s.withPkg { s.pkg with fab := { f with
    paths := put f.paths p.dst.toNat { q with
      unacked := q.unacked ++ [(p, s.pkg.devtime)], ver := f.ver
      since := if q.unacked.isEmpty then s.pkg.devtime else q.since } } })

/-- A path replaced. -/
def setPath (node : BitVec 12) (p : OPath) (s : State) : State :=
  s.withPkg { s.pkg with fab := { s.pkg.fab with paths := put s.pkg.fab.paths node.toNat p } }

/-- A packet is injected on the ordered path to its destination under the next sequence number (R287, R303); it is sent
once the path has room for it, after those that wait already (log 72). -/
def inject (p : Packet) (s : State) : State :=
  let q := pathTo s.pkg.fab p.dst
  let p := { p with seq := q.next }
  if pathRoom s.pkg.fab p.dst 1 then sendOrdered p (setPath p.dst { q with next := q.next + 1 } s)
  else setPath p.dst { q with next := q.next + 1, wait := q.wait ++ [p] } s

/-- The waiting packets of a path are sent in order while there is room. -/
def pumpPath (node : BitVec 12) : List Packet → State → State
  | [], s => s
  | p :: r, s =>
    let q := pathTo s.pkg.fab node
    if pathFree s.pkg.fab node 1 then pumpPath node r (sendOrdered p (setPath node { q with wait := r } s)) else s

/-- Every path goes on sending. -/
def pumpPaths (s : State) : State := s.pkg.fab.paths.foldl (fun s x => pumpPath (BitVec.ofNat 12 x.1) x.2.wait s) s

/-- A request packet of the running context (R287). -/
def request (kind : Nat) (node : BitVec 12) (off : Nat) (aux : W64) (data : List Byte) (s : State) : Packet where
  kind := kind
  cls := 0
  ver := s.pkg.fab.ver
  vc := false
  dst := node
  src := s.pkg.nodeid
  scid := Config.coreId
  dcid := 0
  cn := 0
  epoch := 0
  seq := 0
  poff := 0
  hops := 0
  addr := off % 2 ^ 48
  ctxid := s.c.id.ctxid
  aux := aux
  mark := false
  data := data

/-- A notice, arrival or message of a core group for another package, on the ordered path (R209, R394). -/
def collPacket (node : BitVec 12) (aux : W64) (data : List Byte) (s : State) : State :=
  inject (request 13 node 0 aux data s) s

/-- The notices of an abort for the remote packages that a core group lists (R394). -/
def sendNotices (ctx : W32) (gid : BitVec 8) (s : State) : State :=
  let remote := match look s.pkg.groups gid.toNat with | some r => r.remote | none => []
  remote.foldl (fun s r => inject { request 13 r.1 0 (BitVec.ofNat 64 (2 ^ 62 + gid.toNat)) [] s with ctxid := ctx } s) s

/-! ## Link states -/

/-- A link's record replaced. -/
def setLink (l : LinkNo) (k : Link) (s : State) : State := s.withPkg { s.pkg with links := s.pkg.links.set l k }

/-- A saturating count of 32 bits, and of 16. -/
def satInc32 (x : W32) : W32 := if x = 0xFFFFFFFF then x else x + 1
def satInc16 (x : W16) : W16 := if x = 0xFFFF then x else x + 1

/-- FLIT_CRC_FAIL (R286, R296): a flit, or a replay of the flit that failed before it, fails its check and is replayed; when
a flit and 8 successive replays of it have failed, the link retrains. -/
def flitFails (l : LinkNo) (replay : Bool) (s : State) : State :=
  let k := s.pkg.links[l]
  let n := if replay then k.streak else 0
  if !linkCarries s.pkg l then s
  else if n < 8 then setLink l { k with crcerr := satInc32 k.crcerr, replay := satInc16 k.replay, streak := n + 1 } s
  else setLink l { k with crcerr := satInc32 k.crcerr, streak := 0, state := .retrain, lanes := 0 } s

def execFlitCrcFail (f : FailedFlit) (s : State) : Host.Outcome State Fault Refusal := event (flitFails f.link f.replay s)

/-- A flit of the link has passed its check. -/
def flitPasses (l : LinkNo) (s : State) : State := setLink l { s.pkg.links[l] with streak := 0 } s

/-- The link is in training, or trains again. -/
def linkTrains (s : State) (l : LinkNo) : Bool := (s.pkg.links[l]).state = .training || (s.pkg.links[l]).state = .retrain

/-- IDLE_FLIT_RECEIPT: the neighbour's ON or OFF of one (class, VC) (R289). -/
def execIdleFlitReceipt (l : LinkNo) (cls : Fin 3) (vc on : Bool) (s : State) : Host.Outcome State Fault Refusal :=
  event (if !linkCarries s.pkg l then s
    else
      let s := flitPasses l s
      let f := s.pkg.fab
      let rest := f.off.filter (fun o => o ≠ (l, cls, vc))
      s.withPkg { s.pkg with fab := { f with off := if on then rest else (l, cls, vc) :: rest } })

end Sys2Proof.Machine
end

