-- ==== Sys2Proof/Machine/Traps.lean ====
section
/-! DEFINITION. Taking a trap and returning from it, abort, rollback, and the answer of a slot
(R40, R52, R184 to R186, R403, R415). -/

namespace Sys2Proof.Machine

/-- The core group of a channel (R319). -/
def chanGroup (s : State) (ch : BitVec 8) : Option (BitVec 8) :=
  (look s.pkg.chans ch.toNat).map (fun c => c.ent.getD 1 0)

/-- The committed items of an aborted context that its connections still hold are dropped (R308). -/
def dropItems (ctx : W32) (s : State) : State :=
  s.withPkg { s.pkg with fab := { s.pkg.fab with
    conns := s.pkg.fab.conns.map (fun c => if c.ctxid = ctx then { c with out := [] } else c) } }

/-- The core groups of an aborted context are notified (R394): the members of this package at once, those of each
remote package through a packet on the ordered path to it. -/
def notifyAll (ctx : W32) (gids : List (BitVec 8)) (s : State) : State :=
  gids.foldl (fun s g => sendNotices ctx g (notifyGroup (chanGroup s) g s)) s

/-- The context is aborted (R186, R394): the atomics it has issued are performed (R18), its phase's buffered set and pending
results are dropped, an abort
record is written, the core groups its task names are notified, and the context ends. -/
def abort (cause : Cause) (addr : W64) (s : State) : State :=
  let s := performAtoms s
  let c := s.c
  let rec_ := abortRecord c.id.ctxid cause Config.coreId s.grp.pc addr c.id.entry
  let s := writeAbort rec_ s
  notifyAll c.id.ctxid c.id.gids (endContext (dropItems c.id.ctxid s))

/-- The results pending when a trap is taken, with the distance each has left (R52). -/
def holdPend (c : Ctx) : List Pend := c.pend.map (fun p => { p with due := p.due - c.gc })

/-- A trap is delivered (R403): to the handler at TRVEC, with TRCAUSE, TRPC, TRADDR and TRMASK written, INH
set, and the pending results and waits held (R52, R415); or it aborts the context. A scoreboarded result has no distance to
hold: it is due at the first group after its data, of the handler too. -/
def takeTrap (cause : Cause) (addr : W64) (mask : Nat) (s : State) : State :=
  let c := s.c
  if c.a.inh then abort .doubleTrap addr s
  else if !c.a.trvec.getLsbD 0 || (cause = .poolRegion && !c.id.prt)
      || cause = .uncontained || cause = .uncorrectable || cause = .doubleTrap then abort cause addr s
  else
    s.withC { c with
      a := { c.a with
        trcause := BitVec.ofNat 64 (causeCode cause)
        trmask := BitVec.ofNat 64 (mask % 256)
        trpc := s.grp.pc
        traddr := addr
        inh := true
        pc := c.a.trvec &&& ~~~3 }
      pend := []
      held := some ⟨holdPend c, c.waits⟩
      waits := []
      ops := c.ops.map (fun o => { o with held := true }) }

/-- TRADDR where the spec states none: a free value (R7, log 12). -/
def freeAddr (s : State) : W64 := Config.freeWord s.tick

/-- The answer of one slot (R40): its effect; the trap it takes, which the group's start receives; the wait
or the freeze that keeps its group from issuing, which leaves the rest of the machine as it was. -/
def answer (s : State) (r : Res State) : Host.Outcome State Fault Refusal :=
  match r with
  | .ok t => .next t
  | .error (.trap c a) =>
    let addr := a.getD (freeAddr s)
    let t := takeTrap c addr (2 ^ s.grp.idx) s
    .next { t with grp := { t.grp with trap := some (c, addr) } }
  | .error (.resid i) => .next { s with grp := { s.grp with stall := some .resource, reload := i.toList } }
  | .error (.depth ch) => .next { s with grp := { s.grp with stall := some .resource, depth := some ch } }
  | .error (.poison va) => .next { s with grp := { s.grp with poison := some va } }
  | .error .matrix => .next { s with grp := { s.grp with stall := some .resource, race := true } }
  | .error (.stall w) => .next { s with grp := { s.grp with stall := some w } }
  | .error (.freeze f) => .next (s.withC { s.c with frozen := some f, frozenSince := s.pkg.devtime })
  | .error (.fault f) => .fault f

/-- A slot under a uniform guard takes effect only where the guard is on (R34). -/
def guarded (g : Fin 16) (s : State) (r : State → Res State) : Host.Outcome State Fault Refusal :=
  answer s (if guardOn g s then r s else .ok s)

/-- A slot without a guard. -/
def always (s : State) (r : State → Res State) : Host.Outcome State Fault Refusal := answer s (r s)

/-- A V slot takes effect only where at least one lane is enabled (R34). -/
def guardedV (g : Fin 8) (s : State) (r : LaneMask → State → Res State) : Host.Outcome State Fault Refusal :=
  answer s (if vGuard g s = 0 then .ok s else r (vGuard g s) s)

/-! ## Rollback -/

/-- The byte range of a region's back half at physical offsets: half 1 is the back unless the halves have
swapped (R156). A plain region has no back half. -/
def Region.back (r : Region) : Nat × Nat :=
  if !r.phased then (r.base, 0)
  else if r.flip then (r.base, r.size) else (r.base + r.size, r.size)

/-- The byte range of a region's front half, or of its single copy (R156). -/
def Region.front (r : Region) : Nat × Nat :=
  if !r.phased then (r.base, r.size)
  else if r.flip then (r.base + r.size, r.size) else (r.base, r.size)

/-- An offset lies in a range. -/
def inRange (r : Nat × Nat) (a : Nat) : Bool := r.1 ≤ a && a < r.1 + r.2

/-- The bytes of a buffer that lie in the back halves of a context's regions. -/
def backCells (rs : List Region) (cb : Bool) (m : Cells) : Cells :=
  m.filter (fun x => rs.any (fun r => r.cb = cb && inRange r.back x.1))

/-- A buffer with the back halves returned to the bytes they held (R185). -/
def restoreBack (rs : List Region) (cb : Bool) (saved m : Cells) : Cells :=
  putCells (m.filter (fun x => !rs.any (fun r => r.cb = cb && inRange r.back x.1))) saved

/-- A rollback (R185, R219, R246, R372): pending and held results are discarded, the checkpoint is restored with no tile open,
the phase's
buffered operations, its stream reservation, its claim of the rejoin line and its engine commands are dropped, the back halves and the read positions of the receive
queues return to the start of the phase; what the phase wrote in plain regions is unspecified (R156), and the
declared inputs of the previous phase are refetched, ahead of every other command, each into and from the physical half
that its `cp.go` took (log 90). Tile entries that the TLBs hold stay there, those too that were loaded through an entry of
`cp.tdef` that is dropped here (log 91). -/
def rollback (s : State) : State :=
  let s := dropMaps (·.touched) (dropMatrix s)
  let s := dropGets (fun g => g.own.ctxid = s.c.id.ctxid && g.own.phseq = s.c.phseq) s
  let c := s.c
  let core := s.core
  let claims := c.buf.any (fun b => match b with | .decpl => true | _ => false)
  let spoilt (cb : Bool) : Cells :=
    (c.dirty.filter (fun d => d.1 = cb)).map (fun d => (d.2, Config.freeByte s.tick d.2))
  let mine (x : Xfer) : Bool := x.own.ctxid = c.id.ctxid
  { s with
    c := { c with
      a := { c.ck with opens := [] }
      pend := []
      held := none
      latch := Vector.replicate 8 ⟨none, false⟩
      ops := []
      fences := 0
      buf := []
      dirty := []
      tdefs := []
      inputs := []
      waits := []
      late := c.late.filter (fun l => !l.ofPhase)
      frozen := none
      unmapped := []
      commit := none }
    core := { core with
      bad := core.bad.filter (fun b => !c.regions.any (fun r => r.cb = b.1 && inRange r.back b.2))
      as := putCells (restoreBack c.regions false c.backAs core.as) (spoilt false)
      cb := putCells (restoreBack c.regions true c.backCb core.cb) (spoilt true)
      recv := if c.id.lease then core.recv.map (fun q => { q with rd := 0 }) else core.recv
      xq := c.prevInputs.map (fun x => { x with refetch := true, cw := none })
        ++ core.xq.filter (fun x => !(mine x && (x.own.phseq = c.phseq || x.refetch))) }
    pkg := dropReserved c.id.ctxid { s.pkg with rejoin := if claims then none else s.pkg.rejoin } }

/-- The running context's commit has passed its point of no return (R181). -/
def pastReturn (c : Ctx) : Bool := (c.commit.map (·.past)).getD false

/-- An uncorrectable error is consumed (R184, R187): a phase that is not emitted, and whose commit has performed nothing yet,
is rolled back and rerun, at most twice; otherwise the context is aborted. -/
def consumeError (addr : W64) (s : State) : State :=
  if s.c.emitted || pastReturn s.c then abort .uncontained addr s
  else if s.c.reruns < 2 then
    let s := rollback s
    s.withC { s.c with reruns := s.c.reruns + 1 }
  else abort .uncorrectable addr s

/-- The same outside a group: TRPC is then that of the next group. -/
def consumeLate (addr : W64) (s : State) : State := consumeError addr { s with grp := { s.grp with pc := s.c.a.pc } }

/-! ## Return from a handler -/

/-- `rfe` (R52, R415): the handler's pending results take effect, INH is cleared, the held results are due as
far after the resumed group as they were after the trapping group, the held waits stand again, the phase
clock restarts, and the next group is at TRPC or after the group there. A typed-buffer write that the units are still to read
past stays pending (R245). -/
def returnFrom (target : W64) (s : State) : State :=
  let l := sortPend s.c.pend
  let late := l.filter (heldBuf s.c)
  let s := (l.filter (fun p => !heldBuf s.c p)).foldl (fun s p => applyEff p.eff s) s
  let c := s.c
  let h := c.held.getD ⟨[], []⟩
  { s with
    c := { c with
      a := { c.a with inh := false }
      pend := late.map (fun p => { p with due := c.gc + 1 }) ++ h.pend.map (fun p => { p with due := c.gc + 1 + p.due })
      held := none
      waits := h.waits
      clock := 0
      ops := c.ops.map (fun o => { o with held := false }) }
    grp := { s.grp with target := some target } }

end Sys2Proof.Machine
end

