-- ==== Sys2Proof/Machine/Memory.lean ====
section
/-! DEFINITION. Addresses, translation, the phase store buffer, and how loads and stores are checked and
issued (R144 to R165, R301 to R305). -/

namespace Sys2Proof.Machine

/-! ## Page tables -/

/-- A PTE is valid: V = 1 and its reserved bits are zero (R147). -/
def pteValid (pte : Nat) : Bool := pte % 2 = 1 && bitsOf pte 63 52 = 0 && bitsOf pte 4 4 = 0

/-- The fields of a PTE (R147). -/
def pteFrame (pte : Nat) : Nat := bitsOf pte 51 16 * 2 ^ 16
def pteLeaf (pte : Nat) : Bool := pte.testBit 8
def pteUser (pte : Nat) : Bool := pte.testBit 5
def pteX (pte : Nat) : Bool := pte.testBit 3
def pteW (pte : Nat) : Bool := pte.testBit 2
def pteR (pte : Nat) : Bool := pte.testBit 1
def pteHB (pte : Nat) : Bool := pte.testBit 10
def ptePG (pte : Nat) : Bool := pte.testBit 9

/-- The four levels: lowest index bit and index width (R146). -/
def levels : List (Nat × Nat) := [(34, 14), (30, 4), (21, 9), (16, 5)]

/-- What a walk finds: a leaf with the size it maps as a power of two, or the place of the PTE that has
V = 0 and its level. -/
inductive WalkEnd where
  | leaf (pte : Nat) (log : Nat)
  | missing (pa : Option Nat) (level : Nat)
deriving DecidableEq, Repr

/-- The walk from a table, through committed memory (R146, R149). -/
def walk (mem : Cells) (off : Nat) : List (Nat × Nat) → Nat → Nat → WalkEnd
  | [], pa, lv => .missing (some pa) lv
  | (lo, w) :: rest, table, lv =>
    let pa := table + 8 * (off / 2 ^ lo % 2 ^ w)
    let pte := getNum mem pa 8
    if !pteValid pte then .missing (some pa) lv
    else if rest.isEmpty || pteLeaf pte then .leaf pte lo
    else walk mem off rest (pteFrame pte) (lv + 1)

/-- The walk from a root register: with V = 0 every access is unmapped (R148). -/
def walkRoot (mem : Cells) (root : W64) (off : Nat) : WalkEnd :=
  if !root.getLsbD 0 then .missing none 0
  else walk mem off levels (bitsOf root.toNat 51 17 * 2 ^ 17) 0

/-- The physical address under a leaf: FRAME rounded down to the mapped size, plus the offset (R146). -/
def leafPa (pte log off : Nat) : Nat := alignDown (pteFrame pte) (2 ^ log) + off % 2 ^ log

/-- A physical address that exists: HBM below 512 GiB, pool, or host (R145). -/
def paExists (pa : Nat) : Bool :=
  match pa / 2 ^ 48 with
  | 0 => pa < 2 ^ 39
  | 2 | 3 => true
  | _ => false

/-! ## Checked accesses -/

/-- What an access is for: the PTE permission it needs (R160, R203). -/
inductive Access where
  | read | write | both | fetch
deriving DecidableEq, Repr

/-- The leaf permits the access; user mode needs U (R160). -/
def permits (k : Access) (sup : Bool) (pte : Nat) : Bool :=
  (sup || pteUser pte) && match k with
    | .read => pteR pte
    | .write => pteW pte
    | .both => pteR pte && pteW pte
    | .fetch => pteX pte

/-- The access code of a fault record (R162). -/
def Access.code : Access → Nat
  | .read => 0 | .write | .both => 1 | .fetch => 2

/-- The root register of a space; space 4 stands for PM (R144, R158). -/
def rootOf (a : Arch) (space : Nat) : W64 :=
  match space with
  | 0 => a.ptroot
  | 2 => a.ptpool
  | 3 => a.pthost
  | _ => a.pmroot

/-- The TLB entry that covers an offset of a space under an ASID (R149). -/
def tlbFind (t : List TlbEnt) (asid : BitVec 12) (space off : Nat) : Option TlbEnt :=
  t.find? (fun e => e.asid = asid && e.space = space && off / 2 ^ e.log = e.page)

/-- The pool region of a physical address is severed: its port's link is lost (R165). -/
def severed (p : Pkg) (pa : Nat) : Bool :=
  pa / 2 ^ 48 = 2 && !(if (bitsOf pa 47 30) % 2 = 0 then p.poolUp[0] else p.poolUp[1])

/-- The context's ASID as TLB entries hold it. -/
def asidOf (a : Arch) : BitVec 12 := a.asid.extractLsb' 0 12

/-- An offset of a space is translated (R149): by the TLBs, else by a walk, whose leaf they then hold. The
answer is the PTE with the size it maps. V = 0 freezes the context, or traps UNMAPPED once the MMP has found
no mapping for the address (R161). -/
def translate (space : Nat) (k : Access) (va : W64) (s : State) : Res (Nat × Nat × State) :=
  let a := s.c.a
  let off := va.toNat % 2 ^ 48
  match tlbFind s.pkg.tlb (asidOf a) space off with
  | some e => .ok (e.pte.toNat, e.log, s)
  | none =>
    match walkRoot s.pkg.mem (rootOf a space) off with
    | .leaf pte log =>
      .ok (pte, log, s.withPkg { s.pkg with
        tlb := ⟨asidOf a, space, 0, off / 2 ^ log, log, BitVec.ofNat 64 pte, 0⟩ :: s.pkg.tlb })
    | .missing pa lv =>
      if s.c.unmapped.contains va then trapAt .unmapped va
      else .error (.freeze ⟨va, space, k.code, pa, lv⟩)

/-- The checks of an access at a physical address under its leaf, in the order of R160: ACCESS, POOL_REGION. -/
def leafCheck (k : Access) (va : W64) (pte pa : Nat) (s : State) : Res Unit :=
  if !permits k s.c.id.sup pte then trapWith .access
  else if !paExists pa then .error (.fault .noSuchPhysicalAddress)
  else if severed s.pkg pa then trapAt .poolRegion va
  else .ok ()

/-- The physical address of an access that its page permits and that no severed region holds, in the order
of R160: translation, ACCESS, POOL_REGION. -/
def paOf (space : Nat) (k : Access) (va : W64) (s : State) : Res (Nat × State) := do
  let (pte, log, s) ← translate space k va s
  let pa := leafPa pte log (va.toNat % 2 ^ 48)
  leafCheck k va pte pa s
  .ok (pa, s)

/-! ## The parts of one slot's access -/

/-- The place of a stop in the order of a slot's checks (R160, R175). -/
def stopRank : Stop → Nat
  | .trap .tensor _ => 0
  | .trap .bounds _ => 1
  | .trap .address _ => 2
  | .trap .misalign _ => 3
  | .trap .access _ => 4
  | .trap .poolRegion _ => 6
  | .trap _ _ | .stall _ | .freeze _ | .fault _ | .resid _ | .matrix | .depth _ | .poison _ => 5

/-- The first check of a slot that fails at one of its parts: the first in the order of the checks, and of several parts
that fail it the lowest (R160). -/
def firstStop {α : Type} : List (Res α) → Option Stop
  | [] => none
  | .ok _ :: r => firstStop r
  | .error e :: r => match firstStop r with
    | some f => if stopRank f < stopRank e then some f else some e
    | none => some e

/-- Every part of a slot's access, or the first check that fails. -/
def allParts {α : Type} (l : List (Res α)) : Res (List α) :=
  match firstStop l with
  | some e => .error e
  | none => .ok (l.filterMap Except.toOption)

/-- A step for each part in turn; a part that stops changes nothing. -/
def eachPart {α β : Type} (f : α → State → Res (β × State)) : List α → State → List (Res β) × State
  | [], s => ([], s)
  | a :: r, s => match f a s with
    | .ok (b, s) =>
      let (l, s) := eachPart f r s
      (.ok b :: l, s)
    | .error e =>
      let (l, s) := eachPart f r s
      (.error e :: l, s)

/-- The parts of a slot's access, checked in the order of R160. -/
def inParts {α β : Type} (f : α → State → Res (β × State)) (l : List α) (s : State) : Res (List β × State) := do
  let (r, s) := eachPart f l s
  let b ← allParts r
  .ok (b, s)

/-- The space of an address (R144). -/
def spaceOf (va : W64) : Nat := fieldOf va 63 60

/-- The node id of an address (R144). -/
def nodeOf (va : W64) : BitVec 12 := va.extractLsb' 48 12

/-- The address names space 0, 2 or 3 with a zero node field, or, where space 1 is allowed, a node of the
torus; else ADDRESS (R144, R301, R302). -/
def addressOk (remote : Bool) (va : W64) (s : State) : Bool :=
  match spaceOf va with
  | 0 | 2 | 3 => nodeOf va = 0
  | 1 => remote && nodeInExt s.pkg.fab.ext (nodeOf va)
  | _ => false

/-! ## The phase store buffer -/

/-- The byte that the most recent of some buffered stores holds for a physical address (R159). -/
def fwdByte (buf : List Buffered) (pa : Nat) : Option Byte :=
  buf.foldl (fun r b => match b with
    | .store w => (w.foldl (fun r c => if c.1 = pa then some c.2 else r) r)
    | _ => r) none

/-- The same for an offset at another node (R304). -/
def fwdRemote (buf : List Buffered) (node : BitVec 12) (off : Nat) : Option Byte :=
  buf.foldl (fun r b => match b with
    | .remote n o d => if n = node && o ≤ off && off < o + d.length then some (d.getD (off - o) 0) else r
    | .remoteV n _ w => if n = node then w.foldl (fun r c => if c.1 = off then some c.2 else r) r else r
    | _ => r) none

/-- The buffered stores that a load of the running group sees: those of earlier groups (R40, R159). -/
def visibleBuf (s : State) : List Buffered := s.c.buf.take s.grp.mark

/-- The distinct 128-byte sectors of the buffered stores (R159). -/
def sectors (buf : List Buffered) : List Nat :=
  buf.foldl (fun l b => match b with
    | .store w => w.foldl (fun l c => if l.contains (c.1 / 128) then l else (c.1 / 128) :: l) l
    | _ => l) []

/-- The remote buffer's items (R305). -/
def remoteItems (buf : List Buffered) : Nat :=
  (buf.filter (fun b => match b with | .remote _ _ _ | .remoteV _ _ _ | .message _ _ _ _ _ _ => true | _ => false)).length

/-- An operation joins the phase's buffered set (R67 Commit). -/
def buffer (b : Buffered) (s : State) : State := s.withC { s.c with buf := s.c.buf ++ [b] }

/-- A store enters the store buffer, or traps BUFFER_FULL where it would need a 513th sector (R159). -/
def bufferStore (w : Cells) (s : State) : Res State :=
  if 512 < (sectors (s.c.buf ++ [.store w])).length then trapWith .bufferFull
  else .ok (buffer (.store w) s)

/-- A remote item enters the remote buffer, or traps BUFFER_FULL as the 129th (R305). -/
def bufferRemote (b : Buffered) (s : State) : Res State :=
  if 128 < remoteItems s.c.buf + 1 then trapWith .bufferFull else .ok (buffer b s)

/-! ## What an access follows -/

/-- The bytes of the 64 KiB reply buffer that outstanding remote requests hold (R290). -/
def replyHeld (c : Ctx) : Nat :=
  (c.ops.map (fun o => match o.kind with
    | .remoteLoad _ _ _ | .remoteAtom _ _ _ _ _ => match o.dst with | .vector _ _ => 256 | _ => 32
    | _ => 0)).sum

/-- An operation of the read-only path, which no order of chapter 7 binds (R198). -/
def MemOp.readOnly (o : MemOp) : Bool := match o.kind with | .loadRo _ _ _ => true | _ => false

/-- A copy command of the running context. -/
def ownCopy (s : State) (x : Xfer) : Bool := x.own.ctxid = s.c.id.ctxid

/-- A deferred copy of an earlier phase has still to perform its last write, which a release waits for (R196). -/
def deferredLeft (s : State) : Bool := s.core.xq.any (fun x => ownCopy s x && bitsOf x.dst.desc 2 1 = 0 && !x.refetch)

/-- The running context's own. -/
def ownUnit (s : State) (o : Owner) : Bool := o.ctxid = s.c.id.ctxid

/-- The collective operations of the running context that have not raised both SR and LR (R204, R331). -/
def collOpen (s : State) : List Nat :=
  (s.pkg.chans.filter (fun c => (c.2.owner.map (ownUnit s)).getD false)).flatMap (fun c =>
    (c.2.ops.filter (fun o => o.k < c.2.issued && (c.2.sr ≤ o.k || c.2.lr ≤ o.k))).map (·.no))

/-- The numbers of the running context's engine commands that are still at work (R204). -/
def engineOpen (s : State) : List Nat :=
  (s.core.xq.filter (ownCopy s)).map (·.no) ++ (s.pkg.fab.gets.filter (fun g => g.own.ctxid = s.c.id.ctxid)).map (·.no)
    ++ matrixNumbers s.c ++ s.c.tmq.map (·.no) ++ collOpen s ++ (s.pkg.attn.tiers.filter (fun t => ownUnit s t.own)).map (·.no)
    ++ (s.pkg.attn.asks.filter (fun a => ownUnit s a.own)).map (·.no) ++ (s.pkg.attn.apps.filter (fun a => ownUnit s a.own)).map (·.no)
    ++ (s.pkg.attn.rebals.filter (fun a => ownUnit s a.own)).map (·.no)

/-- An engine command that an engine fence waits for is still at work (R204). -/
def engineLeft (s : State) : Bool := (engineOpen s).any (fun n => n < s.c.engFence)

/-- Stores, puts and reduce-stores of the context's committed phases are not all performed at their nodes: on the way, or
waiting for their path or their connection (R193, R306). -/
def remoteUnpublished (s : State) : Bool :=
  s.pkg.fab.paths.any (fun p => p.2.unacked.any (fun q => q.1.kind = 1 && q.1.ctxid = s.c.id.ctxid)
      || p.2.wait.any (fun q => q.kind = 1 && q.ctxid = s.c.id.ctxid))
    || s.pkg.fab.conns.any (fun c => c.ctxid = s.c.id.ctxid && c.out.any (fun m => !m.get))

/-- An atomic's scope that other packages share (R193). -/
def wideScope : AScope → Bool
  | .torus | .pool => true
  | .grove | .pkg => false

/-- A remote request, which its home performs in its own time, is sent once what the orders of chapter 7 put before it has
been performed: acquires and fences (R194, R204), an `ldc` for a tainted one (R198), everything for a release, and at a wide
scope the publication of every committed store (R196). -/
def remoteOrdered (tainted rel wide : Bool) (s : State) : Bool :=
  let s := atStart s
  s.c.ops.all (fun e => e.readOnly || !(e.acq || e.fences < s.c.fences || rel || (tainted && e.dep)))
    && !engineLeft s && !(rel && (deferredLeft s || (wide && remoteUnpublished s)))

/-- A remote request finds reply space and a place on its path, and follows what it must, or its group stalls (R290,
R303). -/
def remoteRoom (node : BitVec 12) (bytes : Nat) (tainted rel wide : Bool) (s : State) : Res Unit :=
  if 65536 < replyHeld s.c + replyHeld s.c2 + bytes || !pathRoom s.pkg.fab node 1 || !remoteOrdered tainted rel wide s then waitRoom
  else .ok ()

/-! ## Loads -/

/-- The operation of a load with its ordering marks (R50, R198, R204). -/
def memOp (kind : MKind) (dst : LDst) (taint tainted : Bool) (s : State) : MemOp where
  kind := kind
  dst := dst
  taint := taint
  dep := false
  tainted := tainted
  fences := s.c.fences
  acq := false
  rel := false
  scope := .pkg
  held := false
  seq := 0
  gc := s.c.gc

/-- A scoreboarded operation is issued. -/
def issueOp (o : MemOp) (s : State) : State := s.withC { s.c with ops := s.c.ops ++ [o] }

/-- A scalar or vector destination of a scoreboarded result: it must not await another one, and a push is
admitted at issue (R33, R50). -/
def claimS (d : Dst) (s : State) : Res State :=
  match d with
  | .reg r => if awaits (atStart s).c (.reg r) then waitData else .ok s
  | .latch n => if awaitsLatch (atStart s).c n then waitData else .ok s
  | .fifo n => if awaitsFifo (atStart s).c n then waitData else admitPush n 1 s
def claimV (d : Dst) (s : State) : Res State :=
  match d with
  | .reg r => if awaitsV (atStart s).c (.reg r) then waitData else .ok s
  | .latch n => if awaitsLatch (atStart s).c n then waitData else .ok s
  | .fifo n => if awaitsFifo (atStart s).c n then waitData else admitPush n 32 s

/-- The traps of a destination, which come before any wait for another resource (R43): a push needs its link. -/
def checkDst (d : Dst) (s : State) : Res Unit :=
  match d with
  | .reg _ | .latch _ => .ok ()
  | .fifo n => checkLink n s

/-- A byte of a local load: forwarded, or to be read at its physical address (R159). -/
def localByte (buf : List Buffered) (pa : Nat) : LByte :=
  match fwdByte buf pa with | some b => .fwd b | none => .mem pa

/-- A byte of a remote load (R304). -/
def remoteByte (buf : List Buffered) (node : BitVec 12) (off : Nat) : LByte :=
  match fwdRemote buf node off with | some b => .fwd b | none => .mem off

/-- A load of n aligned bytes at a global address, its bytes to fill positions from `pos` (R159, R160,
R166). The bytes' places, after the checks of R160. -/
def loadBytes (space : Nat) (va : W64) (n pos : Nat) (s : State) : Res (List (Nat × LByte) × State) := do
  let (pa, s) ← paOf space .read va s
  .ok ((List.range n).map (fun i => (pos + i, localByte (visibleBuf s) (pa + i))), s)

/-- The effective address of a scalar memory slot (R131, R166). -/
def effAddr (a b : W64) : W64 := a + b

/-- A load whose bytes the context's own remote buffer all holds: nothing is fetched (R304). -/
def allForwarded (l : List (Nat × LByte)) : Bool := l.all (fun b => match b.2 with | .fwd _ => true | .mem _ => false)

/-- What a remote load fetches: the offset of the first byte that is not forwarded, and the bytes up to the last (R304). -/
def fetchSpan (l : List (Nat × LByte)) : Nat × Nat :=
  let xs := l.filterMap (fun b => match b.2 with | .mem x => some x | .fwd _ => none)
  let a := xs.foldl min (xs.headD 0)
  (a, xs.foldl max 0 + 1 - a)

/-- A request of the running context to a node is injected; the operation remembers its sequence number (R303). -/
def issueRemote (kind : Nat) (node : BitVec 12) (off : Nat) (aux : W64) (data : List Byte) (o : MemOp) (s : State) : State :=
  issueOp { o with seq := (pathTo s.pkg.fab node).next } (inject (request kind node off aux data s) s)

/-- The request of a remote load (R304). -/
def issueFetch (node : BitVec 12) (bytes : List (Nat × LByte)) (o : MemOp) (s : State) : State :=
  let (a, n) := fetchSpan bytes
  issueRemote 0 node a (BitVec.ofNat 64 n) [] o s

/-- A scalar load of n bytes from global space to D (R166, R301, R304): `dep` marks an `ldc`. -/
def loadS (n : Nat) (dep : Bool) (g : Fin 16) (d : Dst) (a b : Src) (s : State) : Res State := do
  let (x, y, t, s) ← srcSS a b s
  let ea := effAddr x y
  let t := t || predTaint s.c (guardReg g)
  if !addressOk true ea s then trapWith .address
  else if ea.toNat % n ≠ 0 then trapWith .misalign
  else if spaceOf ea = 1 then
    let node := nodeOf ea
    let off := ea.toNat % 2 ^ 48
    let bytes := (List.range n).map (fun i => (i, remoteByte (visibleBuf s) node (off + i)))
    if allForwarded bytes then
      let s ← claimS d s
      .ok (issueOp { memOp (.load bytes) (.scalar d) (t || dep) t s with dep := dep } s)
    else
      checkDst d s
      remoteRoom node 32 t false false s
      let s ← claimS d s
      .ok (issueFetch node bytes { memOp (.remoteLoad node off bytes) (.scalar d) (t || dep) t s with dep := dep } s)
  else
    let (bytes, s) ← loadBytes (spaceOf ea) ea n 0 s
    let s ← claimS d s
    .ok (issueOp { memOp (.load bytes) (.scalar d) (t || dep) t s with dep := dep } s)

/-! ## Stores -/

/-- A scalar store of the low n bytes of a register to global space (R167, R305). -/
def storeS (n : Nat) (d : Reg) (a b : Src) (s : State) : Res State := do
  let (x, y, _, s) ← srcSS a b s
  let (v, _) ← srcReg d s
  let ea := effAddr x y
  let data := bytesOf n v.toNat
  if !addressOk true ea s then trapWith .address
  else if ea.toNat % n ≠ 0 then trapWith .misalign
  else if spaceOf ea = 1 then bufferRemote (.remote (nodeOf ea) (ea.toNat % 2 ^ 48) data) s
  else
    let (pa, s) ← paOf (spaceOf ea) .write ea s
    bufferStore (cellsAt pa data) s

/-- A PM offset is checked: it may not name space 1 (R302); alignment, then that n bytes lie below PMSIZE (R170). -/
def pmCheck (al n : Nat) (o : W64) (s : State) : Res Unit :=
  if spaceOf o = 1 then trapWith .address
  else if o.toNat % al ≠ 0 then trapWith .misalign
  else if fieldOf s.c.a.pmsize 47 16 * 2 ^ 16 < o.toNat + n then trapWith .bounds
  else .ok ()

/-! ## Typed buffers -/

/-- The region of the context that wholly holds the n bytes at a buffer offset (R155). -/
def regionAt (rs : List Region) (cb : Bool) (off n : Nat) : Option Region :=
  rs.find? (fun r => r.cb = cb && r.base ≤ off && off + n ≤ r.base + r.size)

/-- The physical offset of a logical offset in a region's half: the back half of a phased region or, when
`back` is false, its front; a plain region has one copy (R156). -/
def Region.phys (r : Region) (back : Bool) (off : Nat) : Nat :=
  if !r.phased then off
  else off + (if back = r.flip then 0 else r.size)

/-- A V slot's typed-buffer access waits while matrix work or a token merge command of an earlier group is queued, which R49
allows: it then meets the buffers in program order with them (R245, R375). -/
def behindMatrix (s : State) : Res Unit :=
  let s := atStart s
  if mxBusy s.c then .error .matrix else if !s.c.tmq.isEmpty then waitRoom else .ok ()

/-- Logical CB offsets that meet an open tile (R238). -/
def onTile (c : Ctx) (off n : Nat) : Bool := c.a.opens.any (fun o => off < o.1 + o.2 && o.1 < off + n)

/-- The size of a buffer (R154). -/
def bufSize (cb : Bool) : Nat := if cb then 2 ^ 20 else 3 * 2 ^ 20

/-- The bytes of AS or CB. -/
def State.buf (s : State) (cb : Bool) : Cells := if cb then s.core.cb else s.core.as

/-- The buffer with some bytes written. -/
def writeBuf (cb : Bool) (w : Cells) (s : State) : State :=
  let k := s.core.cleanse cb (fun a => w.any (fun c => c.1 = a))
  if cb then s.withCore { k with cb := putCells k.cb w } else s.withCore { k with as := putCells k.as w }

/-- Bytes of a buffer are read for a slot: poison among them is consumed (R184). -/
def soundBuf (cb : Bool) (l : List Nat) (s : State) : Res Unit :=
  match s.core.bad.find? (fun b => b.1 = cb && l.contains b.2) with
  | some b => .error (.poison (BitVec.ofNat 64 b.2))
  | none => .ok ()

end Sys2Proof.Machine
end

