-- ==== Sys2Proof/Machine/Flags.lean ====
section
/-! DEFINITION. The arithmetic of one element with its flags (R116, R117, R132), and the frame that runs
an operation over the elements of a register (R80, R114, R121). -/

namespace Sys2Proof.Machine

/-! ## Floating-point operations on one element -/

/-- A NaN operand: the canonical NaN, with invalid where one of the operands is signalling (R116). -/
def nanOf (l : List Val) : FRes := .nan (if l.any (fun v => v = .nan true) then fNV else 0)

def Val.isNan : Val → Bool
  | .nan _ => true
  | .inf _ | .num _ => false

/-- Addition (R116). -/
def fadd (m : RMode) (x y : Val) : FRes :=
  match x, y with
  | .inf a, .inf b => if a = b then .inf a 0 else .nan fNV
  | .inf a, .num _ => .inf a 0
  | .num _, .inf b => .inf b 0
  | .num a, .num b => .val (a.add (m = .rdn) b) 0
  | _, _ => nanOf [x, y]

/-- The value with its sign flipped. -/
def Val.flip : Val → Val
  | .nan q => .nan q
  | .inf n => .inf (!n)
  | .num x => .num x.flip

/-- The sign of a value that is no NaN. -/
def Val.neg : Val → Bool
  | .nan _ => false
  | .inf n => n
  | .num x => x.neg

def Val.isZero : Val → Bool
  | .num x => x.isZero
  | .nan _ | .inf _ => false

def Val.isInf : Val → Bool
  | .inf _ => true
  | .nan _ | .num _ => false

/-- Multiplication (R116). -/
def fmul (x y : Val) : FRes :=
  match x, y with
  | .num a, .num b => .val (a.mul b) 0
  | .nan _, _ | _, .nan _ => nanOf [x, y]
  | _, _ => if x.isZero || y.isZero then .nan fNV else .inf (x.neg != y.neg) 0

/-- a × b + c with one rounding; 0 × ∞ is invalid even beside a quiet NaN (R116, R133). -/
def ffma (m : RMode) (x y c : Val) : FRes :=
  if (x.isZero && y.isInf) || (x.isInf && y.isZero) then .nan fNV
  else match x, y, c with
    | .num a, .num b, .num d => .val ((a.mul b).add (m = .rdn) d) 0
    | .num _, .num _, .inf n => .inf n 0
    | _, _, _ =>
      if x.isNan || y.isNan || c.isNan then nanOf [x, y, c]
      else match c with
        | .inf n => if n = (x.neg != y.neg) then .inf n 0 else .nan fNV
        | _ => .inf (x.neg != y.neg) 0

/-- Division (R116). -/
def fdiv (x y : Val) : FRes :=
  match x, y with
  | .nan _, _ | _, .nan _ => nanOf [x, y]
  | .inf _, .inf _ => .nan fNV
  | .inf _, .num _ => .inf (x.neg != y.neg) 0
  | .num _, .inf _ => .val (Exact.zero (x.neg != y.neg)) 0
  | .num a, .num b =>
    if b.isZero then (if a.isZero then .nan fNV else .inf (a.neg != b.neg) fDZ)
    else if a.isZero then .val (Exact.zero (a.neg != b.neg)) 0
    else .val (a.div b) 0

/-- Square root (R116). -/
def fsqrt (x : Val) : FRes :=
  match x with
  | .nan _ => nanOf [x]
  | .inf n => if n then .nan fNV else .inf false 0
  | .num a => if a.isZero then .val a 0 else if a.neg then .nan fNV else .val a.sqrt 0

/-- x < y for values that are no NaN; zeros of both signs are equal. -/
def Val.lt (x y : Val) : Bool :=
  match x, y with
  | .num a, .num b => a.lt b
  | .inf n, .num _ => n
  | .num _, .inf n => !n
  | .inf a, .inf b => a && !b
  | _, _ => false

/-- x = y for values that are no NaN. -/
def Val.eqv (x y : Val) : Bool :=
  match x, y with
  | .num a, .num b => a.eqv b
  | .inf a, .inf b => a = b
  | _, _ => false

/-- x < y where −0 counts as smaller than +0 (R132). -/
def Val.below (x y : Val) : Bool := x.lt y || (x.eqv y && x.neg && !y.neg)

/-- The bits of an operand as vmin and vmax deliver it: a flushed subnormal is a zero (R79, R132). -/
def keepBits (f : FpFmt) (b : Nat) : Val → Nat
  | .num x => if x.isZero then f.signBit x.neg else b
  | .nan _ | .inf _ => b

/-- minimumNumber, or maximumNumber where `big` holds, of two elements (R132). -/
def minMax (f : FpFmt) (dn big : Bool) (a b : Nat) : Nat × Flags6 :=
  let x := f.operand dn a
  let y := f.operand dn b
  let fl : Flags6 := if x = .nan true || y = .nan true then fNV else 0
  if x.isNan && y.isNan then (f.nanBits, fl)
  else if x.isNan then (keepBits f b y, fl)
  else if y.isNan then (keepBits f a x, fl)
  else
    let first := if big then y.below x else x.below y
    (if first then keepBits f a x else keepBits f b y, fl)

/-! ## Integers -/

/-- An exact integer result delivered at an integer format's width: modulo 2^w, or clamped with saturate
(R117). -/
def intDeliver (k : FKind) (sat : Bool) (x : Int) : Nat × Flags6 :=
  let w := match k with | .int w | .uint w => w | .fp _ => 0
  let (lo, hi) := intRange k
  if sat then (if x < lo then (wrapN w lo, fSAT) else if hi < x then (wrapN w hi, fSAT) else (wrapN w x, 0))
  else (wrapN w x, 0)

/-! ## The frame of R114 -/

/-- Flags ORed into one lane (R120). -/
def orFlags (s : Sticky) (i : Nat) (f : Flags6) : Sticky := s ||| (f.zeroExtend 384 <<< (6 * i))

/-- A register with lane i replaced. -/
def setLane (v : VWord) (i : Nat) (x : W32) : VWord :=
  mix (BitVec.ofNat 2048 (0xFFFFFFFF <<< (32 * i))) v (x.zeroExtend 2048 <<< (32 * i))

/-- The elements at the listed indices: an enabled one is computed from the state of its lane, stepped first
under STO, and its flags go to that lane; another keeps its old value (R34, R80, R114). -/
def elemLoop (w : Nat) (sto : Bool) (lf : Nat → Nat) (en : Nat → Bool) (old : VWord)
    (op : Nat → W32 → Nat × Flags6) : List Nat → Sticky → VWord → List Nat × Sticky × VWord
  | [], fl, xs => ([], fl, xs)
  | j :: r, fl, xs =>
    let i := lf j
    if en i then
      let x := if sto then stepLane (lane xs i) else 0
      let xs := if sto then setLane xs i x else xs
      let (v, f) := op j x
      let (vs, fl, xs) := elemLoop w sto lf en old op r (orFlags fl i f) xs
      (v :: vs, fl, xs)
    else
      let (vs, fl, xs) := elemLoop w sto lf en old op r fl xs
      (elem old w j :: vs, fl, xs)

/-- The rounding of an element under FMT, with the lane state it uses (R76, R80). -/
def roundingOf (fmt : W64) (x : W32) : Rounding := ⟨rmOf fmt, x, satOf fmt, dnOf fmt⟩

/-- The mode is STO. -/
def isSto (fmt : W64) : Bool := rmOf fmt = .sto

/-- A vector result is delivered: register or latch or push, the lane states, and the flags unless Q (R80,
R121). -/
def deliverV (d : Dst) (q : Bool) (x : VWord) (fl : Sticky) (lanes : VWord) (t : Bool) (l : Nat) (s : State) :
    Res State := do
  let s ← writeV d x t l s
  let s := s.withA { s.c.a with lanes := lanes }
  .ok (if q || fl = 0 then s else sched (.sticky fl) l s)

/-- A floating-point format: only its elements are rounded under FMT.RM (R80). -/
def fpFormat (f : Fmt) : Bool := match kindOf f with | .fp _ => true | .int _ | .uint _ => false

/-- An element-wise operation over the whole register in format f (R114): `rounds` says that its elements
step the lane states under STO. -/
def mapElems (f : Fmt) (rounds : Bool) (k : LaneMask) (d : Dst) (q : Bool) (t : Bool) (l : Nat)
    (op : Nat → W32 → Nat × Flags6) (s : State) : Res State := do
  let old ← oldV d s
  let w := widthOf f
  let (vs, fl, xs) := elemLoop w (rounds && fpFormat f && isSto s.c.a.fmt) (laneOf f) (fun i => k.getLsbD i) old op
    (List.range (countOf f)) 0 s.c.a.lanes
  deliverV d q (BitVec.ofNat 2048 (packElems w vs)) fl xs (t || keptTaint f k d s) l s

/-- The format is among those an entry accepts, or the slot traps FORMAT (R82, R115). -/
def needFmt (l : List Fmt) (s : State) : Res Fmt :=
  let f := vtOf s.c.a.fmt
  if l.contains f then .ok f else trapWith .format

/-- The classes of R115. -/
def classF : List Fmt := [.fp64, .fp32, .fp16, .bf16]
def classE : List Fmt := [.fp32, .fp16, .bf16]
def class8 : List Fmt := [.e4m3, .e5m2]
def classI : List Fmt := [.int32, .int16, .int8, .uint32, .uint16, .uint8]
def classAny : List Fmt := classF ++ class8 ++ classI

/-- An operation of two floating-point operands, delivered under FMT (R116). -/
def fpOp2 (fmt : W64) (k : FpFmt) (op : RMode → Val → Val → FRes) (a b : Nat) (x : W32) : Nat × Flags6 :=
  let dn := dnOf fmt
  deliver k (roundingOf fmt x) (op (rmOf fmt) (k.operand dn a) (k.operand dn b))

/-- An operation of one floating-point operand, delivered under FMT (R116). -/
def fpOp1 (fmt : W64) (k : FpFmt) (op : Val → FRes) (a : Nat) (x : W32) : Nat × Flags6 :=
  deliver k (roundingOf fmt x) (op (k.operand (dnOf fmt) a))

end Sys2Proof.Machine
end

