-- ==== Sys2Proof/Machine/Transcendental.lean ====
section
/-! DEFINITION. The four transcendental algorithms with their tables (R122 to R128). -/

namespace Sys2Proof.Machine

/-- Texp: F32(2^(j/64)) (R123). -/
def texp : List Nat :=
  [0x3F800000, 0x3F8164D2, 0x3F82CD87, 0x3F843A29, 0x3F85AAC3, 0x3F871F62, 0x3F88980F, 0x3F8A14D5,
   0x3F8B95C2, 0x3F8D1ADF, 0x3F8EA43A, 0x3F9031DC, 0x3F91C3D3, 0x3F935A2B, 0x3F94F4F0, 0x3F96942D,
   0x3F9837F0, 0x3F99E046, 0x3F9B8D3A, 0x3F9D3EDA, 0x3F9EF532, 0x3FA0B051, 0x3FA27043, 0x3FA43516,
   0x3FA5FED7, 0x3FA7CD94, 0x3FA9A15B, 0x3FAB7A3A, 0x3FAD583F, 0x3FAF3B79, 0x3FB123F6, 0x3FB311C4,
   0x3FB504F3, 0x3FB6FD92, 0x3FB8FBAF, 0x3FBAFF5B, 0x3FBD08A4, 0x3FBF179A, 0x3FC12C4D, 0x3FC346CD,
   0x3FC5672A, 0x3FC78D75, 0x3FC9B9BE, 0x3FCBEC15, 0x3FCE248C, 0x3FD06334, 0x3FD2A81E, 0x3FD4F35B,
   0x3FD744FD, 0x3FD99D16, 0x3FDBFBB8, 0x3FDE60F5, 0x3FE0CCDF, 0x3FE33F89, 0x3FE5B907, 0x3FE8396A,
   0x3FEAC0C7, 0x3FED4F30, 0x3FEFE4BA, 0x3FF28177, 0x3FF5257D, 0x3FF7D0DF, 0x3FFA83B3, 0x3FFD3E0C]

/-- Trcp: F32(1 / (1 + j/64)) (R123). -/
def trcp : List Nat :=
  [0x3F800000, 0x3F7C0FC1, 0x3F783E10, 0x3F74898D, 0x3F70F0F1, 0x3F6D7304, 0x3F6A0EA1, 0x3F66C2B4,
   0x3F638E39, 0x3F607038, 0x3F5D67C9, 0x3F5A740E, 0x3F579436, 0x3F54C77B, 0x3F520D21, 0x3F4F6475,
   0x3F4CCCCD, 0x3F4A4588, 0x3F47CE0C, 0x3F4565C8, 0x3F430C31, 0x3F40C0C1, 0x3F3E82FA, 0x3F3C5264,
   0x3F3A2E8C, 0x3F381703, 0x3F360B61, 0x3F340B41, 0x3F321643, 0x3F302C0B, 0x3F2E4C41, 0x3F2C7692,
   0x3F2AAAAB, 0x3F28E83F, 0x3F272F05, 0x3F257EB5, 0x3F23D70A, 0x3F2237C3, 0x3F20A0A1, 0x3F1F1166,
   0x3F1D89D9, 0x3F1C09C1, 0x3F1A90E8, 0x3F191F1A, 0x3F17B426, 0x3F164FDA, 0x3F14F209, 0x3F139A86,
   0x3F124925, 0x3F10FDBC, 0x3F0FB824, 0x3F0E7835, 0x3F0D3DCB, 0x3F0C08C1, 0x3F0AD8F3, 0x3F09AE41,
   0x3F088889, 0x3F0767AB, 0x3F064B8A, 0x3F053408, 0x3F042108, 0x3F03126F, 0x3F020821, 0x3F010204]

/-- Tlog: F32(log₂(1 + j/64)) (R123). -/
def tlog : List Nat :=
  [0x00000000, 0x3CB73CB4, 0x3D35D69C, 0x3D8759C5, 0x3DB31FB8, 0x3DDE4212, 0x3E0462C4, 0x3E19574F,
   0x3E2E00D2, 0x3E42615F, 0x3E567AF1, 0x3E6A4F72, 0x3E7DE0B6, 0x3E88983F, 0x3E92203D, 0x3E9B8926,
   0x3EA4D3C2, 0x3EAE00D2, 0x3EB7110E, 0x3EC0052B, 0x3EC8DDD4, 0x3ED19BB0, 0x3EDA3F60, 0x3EE2C97D,
   0x3EEB3A9F, 0x3EF39355, 0x3EFBD42B, 0x3F01FED4, 0x3F060828, 0x3F0A0650, 0x3F0DF989, 0x3F11E20F,
   0x3F15C01A, 0x3F1993E3, 0x3F1D5DA0, 0x3F211D84, 0x3F24D3C2, 0x3F28808C, 0x3F2C2411, 0x3F2FBE80,
   0x3F335004, 0x3F36D8CB, 0x3F3A58FF, 0x3F3DD0C8, 0x3F41404F, 0x3F44A7BA, 0x3F480731, 0x3F4B5ED7,
   0x3F4EAED0, 0x3F51F740, 0x3F553848, 0x3F587209, 0x3F5BA4A4, 0x3F5ED039, 0x3F61F4E5, 0x3F6512C7,
   0x3F6829FB, 0x3F6B3A9F, 0x3F6E44CD, 0x3F7148A1, 0x3F744636, 0x3F773DA4, 0x3F7A2F04, 0x3F7D1A71]

/-- Trsq: F32(1 / √cⱼ) (R123). -/
def trsq : List Nat :=
  [0x3F800000, 0x3F7C1764, 0x3F785B42, 0x3F74C867, 0x3F715BEF, 0x3F6E133E, 0x3F6AEBF5, 0x3F67E3ED,
   0x3F64F92E, 0x3F6229ED, 0x3F5F7483, 0x3F5CD76E, 0x3F5A514A, 0x3F57E0CF, 0x3F5584CD, 0x3F533C2E,
   0x3F5105EC, 0x3F4EE116, 0x3F4CCCCD, 0x3F4AC83F, 0x3F48D2AB, 0x3F46EB5A, 0x3F4511A3, 0x3F4344E6,
   0x3F41848F, 0x3F3FD012, 0x3F3E26EB, 0x3F3C889F, 0x3F3AF4BA, 0x3F396ACE, 0x3F37EA74, 0x3F36734A,
   0x3F3504F3, 0x3F32416A, 0x3F2F9D53, 0x3F2D166C, 0x3F2AAAAB, 0x3F285835, 0x3F261D5F, 0x3F23F8A2,
   0x3F21E89B, 0x3F1FEC04, 0x3F1E01B3, 0x3F1C2896, 0x3F1A5FB2, 0x3F18A61F, 0x3F16FB06, 0x3F155DA2,
   0x3F13CD3A, 0x3F124925, 0x3F10D0C3, 0x3F0F6381, 0x3F0E00D5, 0x3F0CA83F, 0x3F0B5948, 0x3F0A137D,
   0x3F08D677, 0x3F07A1D2, 0x3F067532, 0x3F05503E, 0x3F0432A5, 0x3F031C1A, 0x3F020C52, 0x3F01030A]

/-- The exact value of binary32 bits. -/
def f32val (b : Nat) : Exact :=
  match fpFP32.value b with
  | .num x => x
  | .nan _ | .inf _ => Exact.zero false

/-- Entry j of a table. -/
def tab (t : List Nat) (j : Nat) : Exact := f32val (t.getD j 0)

/-- E1, E2, E3 and G1 to G4 (R123). -/
def cE1 : Exact := f32val 0x3F317218
def cE2 : Exact := f32val 0x3E75FDF0
def cE3 : Exact := f32val 0x3D635847
def cG1 : Exact := f32val 0x3FB8AA3B
def cG2 : Exact := f32val 0xBF38AA3B
def cG3 : Exact := f32val 0x3EF6384F
def cG4 : Exact := f32val 0xBEB8AA3B

/-- F32 (R122): 24 bits of precision, RNE, unbounded exponent. -/
def f32 (x : Exact) : Exact :=
  if x.isZero then x
  else
    let q := x.log - 23
    ⟨x.neg, (roundUnits ⟨.rne, 0, false, false⟩ x q).1, q, false⟩

/-- Fma (R122). -/
def fmaE (a b c : Exact) : Exact := f32 ((a.mul b).add false c)

def oneE : Exact := ⟨false, 1, 0, false⟩

/-- Split: the fraction m as an exact value in [1, 2), and the exponent (R122). -/
def splitM (x : Exact) : Exact := ⟨false, x.man, -(Nat.log2 x.man : Int), false⟩

/-- Top(m, k) (R122): the k most significant fraction bits of m. -/
def topBits (m : Exact) (k : Nat) : Nat :=
  let b := Nat.log2 m.man
  m.man * 2 ^ k / 2 ^ b - 2 ^ k

/-- 2^k exactly. -/
def pow2 (k : Int) : Exact := ⟨false, 1, k, false⟩

/-- vexp2 of one value (R124). -/
def exp2Val (x : Val) : FRes :=
  match x with
  | .nan _ => nanOf [x]
  | .inf n => if n then .val (Exact.zero false) 0 else .inf false 0
  | .num a =>
    if !a.lt (Exact.ofInt 128) then .val (pow2 128) 0
    else if a.lt (Exact.ofInt (-160)) then .val (pow2 (-200)) 0
    else
      let n := (roundInt ⟨.rne, 0, false, false⟩ (a.scale 6)).1
      let k := n.fdiv 64
      let j := (n - 64 * k).toNat
      let r := a.add false ((Exact.ofInt (-n)).scale (-6))
      let p := fmaE r (fmaE r (fmaE r cE3 cE2) cE1) oneE
      .val (((tab texp j).mul p).scale k) 0

/-- vlog2 of one value (R125). -/
def log2Val (x : Val) (rdn : Bool) : FRes :=
  match x with
  | .nan _ => nanOf [x]
  | .inf n => if n then .nan fNV else .inf false 0
  | .num a =>
    if a.isZero then .inf true fDZ
    else if a.neg then .nan fNV
    else
      let m := splitM a
      let j := topBits m 6
      let c : Exact := ⟨false, 64 + j, -6, false⟩
      let u := f32 ((m.add false c.flip).mul (tab trcp j))
      let t := fmaE u (fmaE u (fmaE u (fmaE u cG4 cG3) cG2) cG1) (tab tlog j)
      .val ((Exact.ofInt a.log).add rdn t) 0

/-- vrcp of one value (R126). -/
def rcpVal (x : Val) : FRes :=
  match x with
  | .nan _ => nanOf [x]
  | .inf n => .val (Exact.zero n) 0
  | .num a =>
    if a.isZero then .inf a.neg fDZ
    else
      let m := splitM a
      let step (y : Exact) : Exact := fmaE y (fmaE m.flip y oneE) y
      let y := step (step (step (tab trcp (topBits m 6))))
      .val { y.scale (-a.log) with neg := a.neg } 0

/-- vrsqrt of one value (R127). -/
def rsqrtVal (x : Val) : FRes :=
  match x with
  | .nan _ => nanOf [x]
  | .inf n => if n then .nan fNV else .val (Exact.zero false) 0
  | .num a =>
    if a.isZero then .inf a.neg fDZ
    else if a.neg then .nan fNV
    else
      let m := splitM a
      let odd := a.log % 2 ≠ 0
      let e := if odd then a.log - 1 else a.log
      let j := topBits m 5 + (if odd then 32 else 0)
      let m := if odd then m.scale 1 else m
      let step (y : Exact) : Exact := fmaE (y.scale (-1)) (fmaE (f32 (m.mul y)).flip y oneE) y
      let y := step (step (step (tab trsq j)))
      .val (y.scale (-(e / 2))) 0

end Sys2Proof.Machine
end

