-- ==== Sys2Proof/Machine/Partial.lean ====
section
/-! DEFINITION. Partials of attention: exact sums of binary32 values rounded once, and the merge of two partials
(R345, R346). -/

namespace Sys2Proof.Machine

/-- A result as a value, its flags discarded. -/
def bareVal : FRes → Val
  | .nan _ => .nan false
  | .inf n _ => .inf n
  | .val x _ => .num x

/-- The exact product of two values. -/
def prodVal (x y : Val) : Val := bareVal (fmul x y)

/-- The exact sum of some values; a zero sum is +0 unless every term is −0. -/
def sumVal : List Val → Val
  | [] => .num (Exact.zero false)
  | x :: r => r.foldl (fun a b => bareVal (fadd .rne a b)) x

/-- A value as a result to deliver. -/
def resOf : Val → FRes
  | .nan _ => .nan 0
  | .inf n => .inf n 0
  | .num x => .val x 0

/-- Rounding of the roots and merge units: RNE, SAT = 0, DN = 0 (R345). -/
def rnMode : Rounding := ⟨.rne, 0, false, false⟩

/-- A value rounded once to a format, as bits. -/
def rnTo (f : FpFmt) (x : Val) : Nat := (deliver f rnMode (resOf x)).1

/-- Rn (R345). -/
def rn (x : Val) : Nat := rnTo fpFP32 x

/-- The value of binary32 bits. -/
def val32 (b : Nat) : Val := fpFP32.value b

/-- Exp2 (R345). -/
def exp2Bits (b : Nat) : Nat := (deliver fpFP32 rnMode (exp2Val (val32 b))).1

/-- −∞ and the canonical NaN in FP32. -/
def negInf32 : W32 := 0xFF800000
def nan32 : W32 := 0x7FC00000

/-- The empty partial and the NaN partial of n elements (R345). -/
def emptyPartial (n : Nat) : Partial := ⟨negInf32, 0, List.replicate n 0, 0⟩
def nanPartial (n count : Nat) : Partial := ⟨nan32, nan32, List.replicate n nan32, count⟩

/-- m is a NaN or +∞. -/
def badM (p : Partial) : Bool := val32 p.m.toNat = .inf false || (val32 p.m.toNat).isNan

/-- a · x + b · y, exact and rounded once (R346). -/
def blend (x a y b : Nat) : W32 :=
  BitVec.ofNat 32 (rn (sumVal [prodVal (val32 x) (val32 a), prodVal (val32 y) (val32 b)]))

/-- Merge (R346); where one partial is shorter, its missing elements count as +0. -/
def mergePartial (p q : Partial) : Partial :=
  let n := max p.o.length q.o.length
  let count := p.count + q.count
  if badM p || badM q then nanPartial n count
  else if p.m = negInf32 then { q with count := count }
  else if q.m = negInf32 then { p with count := count }
  else
    let m := (minMax fpFP32 false true p.m.toNat q.m.toNat).1
    let less (x : W32) : Nat := exp2Bits (rn (sumVal [val32 x.toNat, (val32 m).flip]))
    let a := less p.m
    let b := less q.m
    { m := BitVec.ofNat 32 m
      l := blend p.l.toNat a q.l.toNat b
      o := (List.range n).map (fun i => blend (p.o.getD i 0).toNat a (q.o.getD i 0).toNat b)
      count := count }

/-- A partial as binary32 words m, l, o (R320), and back. -/
def partialWords (p : Partial) : List W32 := p.m :: p.l :: p.o
def partialOf (w : List W32) : Partial := ⟨w.getD 0 0, w.getD 1 0, w.drop 2, 0⟩

end Sys2Proof.Machine
end

