-- ==== Sys2Proof/Machine/Channels.lean ====
section
/-! DEFINITION. The channel table: fields of an entry, members and ranks, the two trees, combining (R319 to R327). -/

namespace Sys2Proof.Machine

/-! ## The entry (R319, R320) -/

/-- A field of n bytes at an offset of the entry. -/
def entNum (e : List Byte) (o n : Nat) : Nat := ofBytes ((e.drop o).take n)

def chKind (e : List Byte) : Nat := entNum e 0 1
def chGid (e : List Byte) : BitVec 8 := e.getD 1 0
def chDepth (e : List Byte) : Nat := entNum e 2 1
def chFmt (e : List Byte) : Nat := entNum e 3 1
def chOp (e : List Byte) : Nat := entNum e 4 1
def chScope (e : List Byte) : Nat := bitsOf (entNum e 5 1) 3 1
def chArrival (e : List Byte) : Bool := (entNum e 5 1).testBit 0
def chRoot (e : List Byte) : Nat := entNum e 6 2
def chN (e : List Byte) : Nat := entNum e 8 4
def chSrc (e : List Byte) : Nat := entNum e 0x10 4
def chDst (e : List Byte) : Nat := entNum e 0x14 4
def chSStride (e : List Byte) : Nat := entNum e 0x18 4
def chDStride (e : List Byte) : Nat := entNum e 0x1C 4
def chEv (e : List Byte) : Nat := entNum e 0x20 4

/-- The element size (R320). -/
def chWidth (e : List Byte) : Nat := if chFmt e = 0 || chFmt e = 7 then 4 else 2

/-- The operation is smerge. -/
def isSmerge (e : List Byte) : Bool := chKind e = 2 && chOp e = 3

/-- The bytes of a source slot (R320). -/
def chSlot (e : List Byte) : Nat := if isSmerge e then (chN e + 2) * 4 else chN e * chWidth e

/-- The bytes of each half of a contribution: trees A and B (R324). -/
def chHalf (e : List Byte) (b : Bool) : Nat :=
  let a := if isSmerge e then chSlot e else (chN e + 1) / 2 * chWidth e
  if b then chSlot e - a else a

/-! ## Members (R321) -/

/-- The member packages of a group by node id, with their member counts. -/
def memberPackages (s : State) (gid : BitVec 8) : Table Nat :=
  match look s.pkg.groups gid.toNat with
  | none => []
  | some r => r.remote.foldl (fun t x => put t x.1.toNat x.2) [(s.pkg.nodeid.toNat, popN 256 r.cores.toNat)]

/-- The member count M. -/
def memberCount (s : State) (gid : BitVec 8) : Nat := ((memberPackages s gid).map Prod.snd).sum

/-- The modelled core is a member of the group. -/
def isMember (s : State) (gid : BitVec 8) : Bool :=
  match look s.pkg.groups gid.toNat with
  | none => false
  | some r => r.cores.getLsbD Config.coreId.toNat

/-- The modelled core's rank. -/
def ownRank (s : State) (gid : BitVec 8) : Nat :=
  let before := (((memberPackages s gid).filter (fun x => x.1 < s.pkg.nodeid.toNat)).map Prod.snd).sum
  match look s.pkg.groups gid.toNat with
  | none => before
  | some r => before + ((List.range Config.coreId.toNat).filter (fun i => r.cores.getLsbD i)).length

/-- The node of each rank. -/
def rankNodes (s : State) (gid : BitVec 8) : List (BitVec 12) :=
  (memberPackages s gid).flatMap (fun x => List.replicate x.2 (BitVec.ofNat 12 x.1))

/-- The entry is malformed (R319). -/
def malformedChan (s : State) (e : List Byte) : Bool :=
  let m := memberCount s (chGid e)
  let remote := match look s.pkg.groups (chGid e).toNat with | some r => !r.remote.isEmpty | none => false
  let k := chKind e
  let cells := if k = 4 then m * chSlot e else chSlot e
  4 < k || chDepth e = 0 || 16 < chDepth e || !([0, 1, 2, 7] : List Nat).contains (chFmt e) || 3 < chOp e || (k ≠ 2 && chOp e ≠ 0)
    || 16 ≤ entNum e 5 1 || chScope e = 0 || 4 < chScope e || (k ≠ 1 && k ≠ 3 && chRoot e ≠ 0)
    || chN e = 0 || 65536 < chN e || entNum e 0x0C 4 ≠ 0 || chSrc e % 256 ≠ 0 || chDst e % 256 ≠ 0
    || chSStride e % 256 ≠ 0 || chDStride e % 256 ≠ 0 || chEv e % 16 ≠ 0 || entNum e 0x24 28 ≠ 0
    || (isSmerge e && chFmt e ≠ 0) || (remote && chScope e < 3) || (k = 1 && m ≠ 2)
    || ((k = 1 || k = 3) && m ≤ chRoot e) || chSStride e < chSlot e || chDStride e < cells

/-! ## The two trees (R323) -/

/-- Parent(p) among M positions; the first argument bounds the loop. -/
def parentFrom : Nat → Nat → Nat → Nat → Nat
  | 0, _, p, _ => p
  | n + 1, k, p, m =>
    let q := if p.testBit (k + 1) then p - 2 ^ k else p + 2 ^ k
    if q ≤ m then q else parentFrom n (k + 1) q m

/-- Trailing zeros of a positive number. -/
def ctzFrom : Nat → Nat → Nat
  | 0, _ => 0
  | n + 1, p => if p % 2 = 1 then 0 else 1 + ctzFrom n (p / 2)

def treeParent (p m : Nat) : Nat := parentFrom 64 (ctzFrom 64 p) p m

/-- The root of a tree. -/
def treeRoot (m : Nat) : Nat := 2 ^ Nat.log2 m

/-- The child of a position on one side. -/
def treeChild (left : Bool) (q m : Nat) : Option Nat :=
  (span 1 m).find? (fun c => c ≠ treeRoot m && treeParent c m = q && decide (c < q) = left)

/-- The position of a rank in tree A or B, and the rank at a position. -/
def posOf (b : Bool) (r m : Nat) : Nat := if !b then r + 1 else if m % 2 = 0 then m - r else (r + 1) % m + 1
def rankAt (b : Bool) (p m : Nat) : Nat := ((List.range m).find? (fun r => posOf b r m = p)).getD 0

/-! ## Member state -/

/-- An entry that is unused. -/
def Chan.unused : Chan where
  ent := List.replicate 64 0
  fault := false
  owner := none
  issued := 0
  sr := 0
  lr := 0
  af := 0
  ops := []
  order := []
  early := []

/-- A channel; one never filled is unused (R319). -/
def chanAt (s : State) (ch : BitVec 8) : Chan := (look s.pkg.chans ch.toNat).getD Chan.unused
def setChan (ch : BitVec 8) (c : Chan) (s : State) : State := s.withPkg { s.pkg with chans := put s.pkg.chans ch.toNat c }

/-- The member sends on a P2P channel (R327). -/
def isSender (s : State) (e : List Byte) : Bool := ownRank s (chGid e) = chRoot e

/-- The member reads a source slot for its operations (R327, R328). -/
def usesSource (s : State) (e : List Byte) : Bool :=
  match chKind e with
  | 1 | 3 => isSender s e
  | _ => true

/-- The operations outstanding (R330). -/
def chanOut (s : State) (c : Chan) : Nat :=
  if chKind c.ent = 1 && isSender s c.ent then c.issued - c.af else c.issued - c.lr

/-- The running context owns an operation that has not raised LR here (R333). -/
def collOwed (s : State) : Bool :=
  s.pkg.chans.any (fun c => ((c.2.owner.map (fun o => decide (o.ctxid = s.c.id.ctxid))).getD false) && c.2.lr < c.2.issued)

/-- Bytes of AS belong to a source slot that an operation of a context, numbered below a limit among its engine commands,
has still to read (R329). -/
def sourceHeld (s : State) (ctx : W32) (lim off n : Nat) : Bool :=
  s.pkg.chans.any (fun x =>
    let c := x.2
    ((c.owner.map (fun o => decide (o.ctxid = ctx))).getD false) && usesSource s c.ent && !c.fault
      && c.ops.any (fun o =>
        let at_ := chSrc c.ent + o.k % max 1 (chDepth c.ent) * chSStride c.ent
        decide (c.sr ≤ o.k) && decide (o.k < c.issued) && decide (o.no < lim) && decide (off < at_ + chSlot c.ent)
          && decide (at_ < off + n)))

/-- A V slot's write to AS waits for the SR of the operations issued before its group whose source it meets (R329). -/
def behindSource (cb : Bool) (w : Cells) (s : State) : Res Unit :=
  if !cb && w.any (fun c => sourceHeld s s.c.id.ctxid s.grp.eng c.1 1) then waitRoom else .ok ()

end Sys2Proof.Machine
end

