-- ==== Sys2Proof/WellFormed.lean ====
section
/-! DEFINITION. Which steps are well formed: the limits on operands that the constructors' types do not
carry. An ill-formed slot has no encoding; its word, if there is one, traps ILLEGAL (R42). -/

namespace Sys2Proof

/-- The operand is no pop of a link FIFO, as every C slot requires (R30). -/
def Src.noFifo : Src → Bool
  | .fifo _ => false
  | .reg _ | .latch _ | .zero | .lit | .ident | .one | .mone => true

/-- A packet's fields lie in their ranges (R287, R288): a kind that is sent, a class, at most eight
payload flits, a packet index and a 48-bit offset. -/
def Packet.wf (p : Packet) : Bool :=
  p.kind < 15 && p.cls < 3 && p.data.length ≤ 256 && p.poff < 256 && p.addr < 2 ^ 48

/-- The conditions on operands that the types leave open; an event has those of its payload. -/
def Instr.wf : Instr → Bool
  | .add _ _ _ _ => true
  | .sub _ _ _ _ => true
  | .mul _ _ _ _ => true
  | .mulh _ _ _ _ => true
  | .mulhu _ _ _ _ => true
  | .div _ _ _ _ => true
  | .divu _ _ _ _ => true
  | .rem _ _ _ _ => true
  | .remu _ _ _ _ => true
  | .and _ _ _ _ => true
  | .or _ _ _ _ => true
  | .xor _ _ _ _ => true
  | .andn _ _ _ _ => true
  | .shl _ _ _ _ => true
  | .shr _ _ _ _ => true
  | .sar _ _ _ _ => true
  | .rotl _ _ _ _ => true
  | .min _ _ _ _ => true
  | .max _ _ _ _ => true
  | .minu _ _ _ _ => true
  | .maxu _ _ _ _ => true
  | .addsat _ _ _ _ => true
  | .clz _ _ _ => true
  | .ctz _ _ _ => true
  | .popc _ _ _ => true
  | .bfx _ _ _ _ => true
  | .bfi _ _ _ _ => true
  | .sext _ _ _ _ => true
  | .ceq _ p _ _ => p != 0
  | .cne _ p _ _ => p != 0
  | .clt _ p _ _ => p != 0
  | .cltu _ p _ _ => p != 0
  | .cle _ p _ _ => p != 0
  | .cleu _ p _ _ => p != 0
  | .sel _ _ _ _ => true
  | .mov _ _ _ => true
  | .ldb _ _ _ _ => true
  | .ldh _ _ _ _ => true
  | .ldw _ _ _ _ => true
  | .ldd _ _ _ _ => true
  | .stb _ _ _ _ => true
  | .sth _ _ _ _ => true
  | .stw _ _ _ _ => true
  | .std _ _ _ _ => true
  | .ldc _ _ _ _ => true
  | .ldro _ _ _ _ => true
  | .ldpm _ _ _ _ => true
  | .stpm _ _ _ _ => true
  | .atomAdd _ _ _ _ _ => true
  | .atomMin _ _ _ _ _ => true
  | .atomMax _ _ _ _ _ => true
  | .atomAnd _ _ _ _ _ => true
  | .atomOr _ _ _ _ _ => true
  | .atomXor _ _ _ _ _ => true
  | .atomXchg _ _ _ _ _ => true
  | .atomCas _ _ _ _ _ => true
  | .sysRd _ _ _ => true
  | .sysWr _ _ _ => true
  | .timeRd _ _ _ => true
  | .roinv _ => true
  | .tlbInv _ _ _ => true
  | .mset _ _ _ => true
  | .msetMxstat _ _ => true
  | .mget _ _ _ => true
  | .mgetMxstat _ _ => true
  | .vadd _ _ _ _ _ => true
  | .vsub _ _ _ _ _ => true
  | .vmul _ _ _ _ _ => true
  | .vfma _ _ _ _ _ => true
  | .vfms _ _ _ _ _ => true
  | .vfnma _ _ _ _ _ => true
  | .vmin _ _ _ _ _ => true
  | .vmax _ _ _ _ _ => true
  | .vabs _ _ _ _ => true
  | .vneg _ _ _ _ => true
  | .vdiv _ _ _ _ _ => true
  | .vsqrt _ _ _ _ => true
  | .vrcp _ _ _ _ => true
  | .vrsqrt _ _ _ _ => true
  | .vexp2 _ _ _ _ => true
  | .vlog2 _ _ _ _ => true
  | .vand _ _ _ _ _ => true
  | .vor _ _ _ _ _ => true
  | .vxor _ _ _ _ _ => true
  | .vshl _ _ _ _ _ => true
  | .vshr _ _ _ _ _ => true
  | .vsar _ _ _ _ _ => true
  | .vmulh _ _ _ _ _ => true
  | .vdot4 _ _ _ _ _ => true
  | .vceq _ _ p _ _ => p != 0
  | .vcne _ _ p _ _ => p != 0
  | .vclt _ _ p _ _ => p != 0
  | .vcle _ _ p _ _ => p != 0
  | .vcun _ _ p _ _ => p != 0
  | .vsel _ _ _ _ => true
  | .vmov _ _ _ _ => true
  | .vbcast _ _ _ _ => true
  | .vext _ _ _ _ _ => true
  | .vins _ _ _ _ _ => true
  | .vperm _ _ _ _ _ => true
  | .vrot _ _ _ _ _ => true
  | .vred _ _ _ _ _ => true
  | .vscan _ _ _ _ _ => true
  | .vsticky _ _ _ => true
  | .vstclr _ _ _ => true
  | .vcvt _ _ _ _ _ t => t != .e2m1 && t != .int4 && t != .sp2
  | .vqnt _ _ _ _ => true
  | .vdqn _ _ _ _ => true
  | .vrnd _ _ _ _ _ => true
  | .vscl _ _ _ _ _ => true
  | .vsp2Enc _ _ _ _ _ => true
  | .vsp2Dec _ _ _ _ _ => true
  | .vpk _ _ _ _ _ => true
  | .vupk _ _ _ _ _ w i => w || i.val < 2
  | .vld _ _ _ _ _ => true
  | .vst _ _ _ _ _ => true
  | .vlda _ _ _ _ _ => true
  | .vsta _ _ _ _ => true
  | .vldc _ _ _ _ => true
  | .vstc _ _ _ _ => true
  | .vgat _ _ _ _ _ => true
  | .vsct _ _ _ _ => true
  | .vpf _ _ _ _ => true
  | .vsmrg d a k => 0 < k.val && k.val < 6 && d.val + k.val < 33 && a.val + k.val < 33
  | .vlgsz _ _ _ _ _ => true
  | .mcall _ => true
  | .mret => true
  | .mloop _ _ => true
  | .mend all c => !all || c == 0
  | .mlda _ _ => true
  | .mmac _ _ _ _ => true
  | .mzero _ => true
  | .mdrain _ sc norm scl => norm.val < 5 && (scl || sc == 0)
  | .mhada _ _ _ => true
  | .mkat _ => true
  | .madd _ b r _ => r || b == 0
  | .mprogSet _ _ _ => true
  | .mprogClr _ => true
  | .msync => true
  | .cpSrc _ _ hi a b => (!hi || a == .zero) && a.noFifo && b.noFifo
  | .cpDst _ _ hi a b => (!hi || a == .zero) && a.noFifo && b.noFifo
  | .cpShp _ _ _ b => b.noFifo
  | .cpFmt _ _ b => b.noFifo
  | .cpFmtCtl _ _ b => b.noFifo
  | .cpGo _ _ _ _ _ cw a b => a.noFifo && b.noFifo && (cw || (a == .zero && b == .zero))
  | .cpFill _ _ _ b => b.noFifo
  | .cpStat _ _ _ _ => true
  | .cpCancel _ _ b => b.noFifo
  | .cpTdef _ a b => a.noFifo && b.noFifo
  | .resAlloc _ _ b => b.noFifo
  | .resLoad _ a b => a.noFifo && b.noFifo
  | .resPin _ a => a.noFifo
  | .resUnpin _ _ a => a.noFifo
  | .resRevoke _ a => a.noFifo
  | .resReload _ a => a.noFifo
  | .resQ _ _ b => b.noFifo
  | .rmaConn _ a b => a.noFifo && b.noFifo
  | .rmaConnClose _ a => a.noFifo
  | .rmaPut _ _ a b => a.noFifo && b.noFifo
  | .rmaGet _ _ _ a b => a.noFifo && b.noFifo
  | .rmaRed _ _ _ a b => a.noFifo && b.noFifo
  | .rmaStat _ _ b => b.noFifo
  | .chSend _ _ a => a.noFifo
  | .chRecv _ a => a.noFifo
  | .chRed _ _ a => a.noFifo
  | .chBcast _ _ a => a.noFifo
  | .chAgat _ _ a => a.noFifo
  | .chWait _ _ _ a b => a.noFifo && b.noFifo
  | .chQ _ _ b => b.noFifo
  | .atQ _ _ _ _ a b => a.noFifo && b.noFifo
  | .kvApp _ cw _ a b => a.noFifo && b.noFifo && (cw || b == .zero)
  | .pmRd _ a b => a.noFifo && b.noFifo
  | .pmWrSeq _ a => a.noFifo
  | .pmWrUnit _ a => a.noFifo
  | .pmRebal _ _ a b => a.noFifo && b.noFifo
  | .pxHash _ _ b => b.noFifo
  | .pxLook _ _ b => b.noFifo
  | .pxPin _ _ b => b.noFifo
  | .pxUnpin _ a b => a.noFifo && b.noFifo
  | .pxIns _ _ b => b.noFifo
  | .tierIn _ _ cw a b => a.noFifo && b.noFifo && (cw || b == .zero)
  | .tmMatch _ _ _ b => b.noFifo
  | .tmMerge _ _ _ a b => a.noFifo && b.noFifo
  | .tmUnmrg _ _ a b => a.noFifo && b.noFifo
  | .tmFree _ a => a.noFifo
  | .tmSpill _ a b => a.noFifo && b.noFifo
  | .tmFill _ _ b => b.noFifo
  | .br _ _ _ => true
  | .jal _ _ _ => true
  | .jr _ _ _ _ => true
  | .loop _ _ => true
  | .lset _ _ _ => true
  | .pand pd _ _ => pd != 0
  | .por pd _ _ => pd != 0
  | .pxor pd _ _ => pd != 0
  | .pandn pd _ _ => pd != 0
  | .pnot pd _ => pd != 0
  | .pany pd _ _ => pd != 0
  | .pall pd _ _ => pd != 0
  | .pset pd _ => pd != 0
  | .fmtSet _ _ _ => true
  | .fmtGet _ _ => true
  | .phase _ => true
  | .phin _ _ => true
  | .fence _ l e => l || e
  | .barInit _ _ _ => true
  | .barArr _ _ => true
  | .barWait _ _ _ => true
  | .waita _ _ _ _ _ => true
  | .tspawn _ _ _ => true
  | .texit _ => true
  | .trap _ _ => true
  | .rfe _ => true
  | .fuse _ _ => true
  | .decpl _ => true
  | .rejoin _ => true
  | .prio _ _ => true
  | .sctPin _ _ _ => true
  | .sctRel _ _ _ => true
  | .halt _ => true
  | .commitComplete => true
  | .loadDataArrival _ _ => true
  | .groupAbortNotice _ => true
  | .phaseBudget => true
  | .lateTrapDelivery => true
  | .mmpFaultService _ => true
  | .pagerCompletion _ => true
  | .freezeLimit => true
  | .pageMigrationStart _ => true
  | .pageMigrationEnd _ => true
  | .clearingComplete => true
  | .poolLinkLost _ => true
  | .poolPortRetrain _ _ => true
  | .hostPortDown => true
  | .hostCxlMemWrite _ _ => true
  | .copyCommandComplete _ => true
  | .copyCommandFault _ _ => true
  | .matrixOpPerform => true
  | .mkatRun => true
  | .residencyLoadComplete _ => true
  | .residencyLoadFail _ _ => true
  | .arrayError _ => true
  | .compareModeRunEnd _ => true
  | .flitCrcFail _ => true
  | .linkTrainingResult _ lanes => lanes ≤ 32
  | .linkTrainingTimeout _ => true
  | .packetRoute p => p.wf
  | .multipathFallback p => p.wf
  | .fifowArrival _ _ => true
  | .flow _ _ => true
  | .orderedPacketReceipt p => p.wf
  | .orderedAckReceipt _ _ => true
  | .rtoExpiry _ => true
  | .fabtmoExpiry _ => true
  | .remoteReplyData _ _ => true
  | .nakReceipt _ _ => true
  | .openReceipt p => p.wf
  | .answerReceipt _ _ _ => true
  | .connectionTimeout _ _ => true
  | .autoOpen _ _ => true
  | .brokenClose _ _ => true
  | .putPacketLanding p len _ => p.wf && len != 0 && len ≤ 65536 && len % 256 == 0
  | .messageAckReceipt _ _ _ _ => true
  | .redPacketApply p m => p.wf && m.op.val < 6 && m.len != 0 && m.len ≤ 65536 && m.len % 256 == 0
  | .getreqReceipt p => p.wf
  | .getDataLanding _ _ _ _ _ => true
  | .collPacketReceipt _ => true
  | .sourceReadComplete _ => true
  | .barrierArrival _ _ => true
  | .groupTableFill _ _ => true
  | .queryAtHolder _ => true
  | .partialMerge _ _ _ => true
  | .resultRecordWrite _ => true
  | .staleReport _ => true
  | .attentionTimeout _ => true
  | .appendAtHolder _ => true
  | .appendComplete _ _ => true
  | .pmtWriteAtMember _ _ => true
  | .rebalanceQuery _ => true
  | .rebalanceApply _ => true
  | .rebalanceComplete _ _ => true
  | .unitCopyComplete _ _ _ => true
  | .tierInComplete _ => true
  | .tierInFail _ _ => true
  | .tmCommandPerform => true
  | .launchWordWrite _ => true
  | .dependenceWordWrite _ => true
  | .startTimeTest => true
  | .priorityAgeing => true
  | .taskPlacement => true
  | .saveComplete => true
  | .emergencyAreaDrain => true
  | .starveCountExpiry => true
  | .gangForm => true
  | .gangRejoin => true
  | .streamIdleExpiry _ => true
  | .streamEvictionComplete _ => true
  | .streamLoadComplete _ => true
  | .devtimeWrite _ => true
  | .ppsEdge => true
  | .devtimeSlewEnd => true
  | .ecclogClear => true
  | .linklogClear => true
  | .haltmaskClear _ _ => true
  | .culletClear _ => true
  | .routecfgVerWrite _ => true
  | .routecfgDropClear => true
  | .rtdatWrite _ => true
  | .sctcfgWrite _ => true
  | .lwaddrWrite _ _ => true
  | .hbmWordTransfer x => x.parity.all (fun f => f.all (· < 2048)) && x.badSymbols.all (· < 128) && x.badSymbols.Nodup
  | .laneSwapComplete _ _ => true
  | .powerOnBoot r => r.pass.length == 8
  | .bootRecordClear _ => true
  | .voltageAlarm => true
  | .clockAlarm => true
  | .temperatureAlarm => true
  | .lidMeshAlarm => true
  | .mailboxNonceWrite _ => true
  | .attestationReportReady => true
  | .clockStepDown => true
  | .clockStepUp => true
  | .poolBackInvalidation _ => true
  | .mmpServiceRequest _ => true
  | .hostPortRetrain _ => true
  | .linkPartnerLost _ => true
  | .idleFlitReceipt _ _ _ _ => true
  | .gixImageLoad _ _ _ => true

end Sys2Proof
end

