-- ==== Sys2Proof/Decode.lean ====
section
/-! DEFINITION. Decoding of slots (R26 to R37, R54), total, with a name for each way a word is rejected;
and after it an encoder written from the same tables. All that a word says is read here, once. -/

namespace Sys2Proof

/-- Why a word is no slot. Each of these traps ILLEGAL at decode (R42, R55). -/
inductive Reject where
  /-- U = 0b110 (R27) -/
  | reservedUnit
  /-- a pad slot whose [27:0] is not zero (R27) -/
  | padNotZero
  /-- an opcode the unit does not assign (R54, R55) -/
  | unassigned
  /-- an operand code, a D field, or a field that must be zero or in a range, is not (R29, R30, R42) -/
  | badField
deriving DecidableEq, Repr

/-- What one word of a group is: an instruction, the literal of the group, or a pad (R27). -/
inductive Slot where
  | instr (i : Instr)
  | lit (payload : BitVec 28)
  | pad
deriving DecidableEq, Repr

/-! ## Formats and their codes -/

/-- The format code of R75. -/
def fmtCode : Fmt → BitVec 4
  | .fp32 => 0x0 | .fp16 => 0x1 | .bf16 => 0x2 | .e4m3 => 0x3 | .e5m2 => 0x4 | .e2m1 => 0x5 | .fp64 => 0x6
  | .int32 => 0x7 | .int16 => 0x8 | .int8 => 0x9 | .int4 => 0xA | .uint32 => 0xB | .uint16 => 0xC
  | .uint8 => 0xD | .sp2 => 0xE

/-- The format a code names; 0xF is reserved (R75). -/
def fmtOf (c : BitVec 4) : Option Fmt :=
  match c.toNat with
  | 0x0 => some .fp32 | 0x1 => some .fp16 | 0x2 => some .bf16 | 0x3 => some .e4m3 | 0x4 => some .e5m2
  | 0x5 => some .e2m1 | 0x6 => some .fp64 | 0x7 => some .int32 | 0x8 => some .int16 | 0x9 => some .int8
  | 0xA => some .int4 | 0xB => some .uint32 | 0xC => some .uint16 | 0xD => some .uint8 | 0xE => some .sp2
  | _ => none

/-! ## Fields of a word -/

/-- Bits [lo + len - 1 : lo] of a slot. -/
def bits (w : W32) (lo len : Nat) : BitVec len := w.extractLsb' lo len
/-- [27:22], the opcode within the unit (R26). -/
def opOf (w : W32) : BitVec 6 := bits w 22 6
/-- [21:18], the uniform guard of S, BA and C slots (R28, R36). -/
def gOf (w : W32) : Fin 16 := (bits w 18 4).toFin
/-- [21:19], the lane guard of V slots (R28). -/
def gvOf (w : W32) : Fin 8 := (bits w 19 3).toFin
/-- [18], the Q bit of V slots (R28). -/
def qOf (w : W32) : Bool := w.getLsbD 18
/-- [17:12], the D field (R28). -/
def dOf (w : W32) : BitVec 6 := bits w 12 6
/-- [11:6], the A field (R28). -/
def aOf (w : W32) : BitVec 6 := bits w 6 6
/-- [5:0], the B field (R28). -/
def bOf (w : W32) : BitVec 6 := bits w 0 6

/-- The operand code of a source (R30). -/
def srcCode : Src → BitVec 6
  | .reg r => BitVec.ofNat 6 r.val
  | .latch n => BitVec.ofNat 6 (0x20 + n.val)
  | .zero => 0x28
  | .lit => 0x29
  | .ident => 0x2A
  | .fifo n => BitVec.ofNat 6 (0x30 + n.val)
  | .one => 0x36
  | .mone => 0x37

/-- The source an operand code names (R30); the codes 0x2B to 0x2F and 0x38 to 0x3F name none. -/
def srcOf (c : BitVec 6) : Option Src :=
  let n := c.toNat
  if h : n < 32 then some (.reg ⟨n, h⟩)
  else if n < 40 then some (.latch (Fin.ofNat 8 (n - 32)))
  else if n = 0x28 then some .zero
  else if n = 0x29 then some .lit
  else if n = 0x2A then some .ident
  else if n < 0x30 then none
  else if n < 0x36 then some (.fifo (Fin.ofNat 6 (n - 0x30)))
  else if n = 0x36 then some .one
  else if n = 0x37 then some .mone
  else none

/-- The source a C slot's operand code names: no pop (R30, R36). -/
def srcCOf (c : BitVec 6) : Option Src :=
  match srcOf c with
  | some (.fifo _) => none
  | o => o

/-- The D field of a destination (R29). -/
def dstCode : Dst → BitVec 6
  | .reg r => BitVec.ofNat 6 r.val
  | .latch n => BitVec.ofNat 6 (0x20 + n.val)
  | .fifo n => BitVec.ofNat 6 (0x28 + n.val)

/-- The destination a D field names (R29). -/
def dstOf (c : BitVec 6) : Option Dst :=
  let n := c.toNat
  if h : n < 32 then some (.reg ⟨n, h⟩)
  else if n < 40 then some (.latch (Fin.ofNat 8 (n - 32)))
  else if n < 0x2E then some (.fifo (Fin.ofNat 6 (n - 0x28)))
  else none

/-- A register named by a field of six bits whose NW bit must be 0 (R29, R36). -/
def regOf (c : BitVec 6) : Option Reg :=
  if h : c.toNat < 32 then some ⟨c.toNat, h⟩ else none

/-- A predicate destination: NW = 0 and not p0 (R29). -/
def predOf (c : BitVec 6) : Option Reg :=
  match regOf c with
  | some 0 => none
  | o => o

/-- A field that must hold one value (R42). -/
def must {n : Nat} (x v : BitVec n) : Option Unit := if x = v then some () else none

/-- The operand code of `zero`, which a field that names no second operand must hold. -/
def codeZero : BitVec 6 := 0x28

/-! ## Shapes of S, BA and V slots -/

/-- G, D, A and B general. -/
def decS3 (k : Fin 16 → Dst → Src → Src → Instr) (w : W32) : Option Instr := do
  let d ← dstOf (dOf w); let a ← srcOf (aOf w); let b ← srcOf (bOf w)
  some (k (gOf w) d a b)
/-- D names a register with NW = 0. -/
def decS3r (k : Fin 16 → Reg → Src → Src → Instr) (w : W32) : Option Instr := do
  let d ← regOf (dOf w); let a ← srcOf (aOf w); let b ← srcOf (bOf w)
  some (k (gOf w) d a b)
/-- D names a predicate. -/
def decS3p (k : Fin 16 → Reg → Src → Src → Instr) (w : W32) : Option Instr := do
  let d ← predOf (dOf w); let a ← srcOf (aOf w); let b ← srcOf (bOf w)
  some (k (gOf w) d a b)
/-- B fixed at `zero`. -/
def decS2 (k : Fin 16 → Dst → Src → Instr) (w : W32) : Option Instr := do
  let d ← dstOf (dOf w); let a ← srcOf (aOf w); must (bOf w) codeZero
  some (k (gOf w) d a)
/-- D fixed at 0. -/
def decS3n (k : Fin 16 → Src → Src → Instr) (w : W32) : Option Instr := do
  must (dOf w) 0; let a ← srcOf (aOf w); let b ← srcOf (bOf w)
  some (k (gOf w) a b)
/-- D fixed at 0 and B at `zero`. -/
def decS2n (k : Fin 16 → Src → Instr) (w : W32) : Option Instr := do
  must (dOf w) 0; let a ← srcOf (aOf w); must (bOf w) codeZero
  some (k (gOf w) a)
/-- D fixed at 0, A and B at `zero`. -/
def decS0 (k : Fin 16 → Instr) (w : W32) : Option Instr := do
  must (dOf w) 0; must (aOf w) codeZero; must (bOf w) codeZero
  some (k (gOf w))
/-- A destination, with A and B at `zero`. -/
def decSd (k : Fin 16 → Dst → Instr) (w : W32) : Option Instr := do
  let d ← dstOf (dOf w); must (aOf w) codeZero; must (bOf w) codeZero
  some (k (gOf w) d)
/-- The ordering of an atomic, [21:20] (R28). -/
def ordOf (w : W32) : AOrd :=
  match (bits w 20 2).toNat with | 0 => .rlx | 1 => .acq | 2 => .rel | _ => .acqrel
/-- The scope of an atomic, [19:18] (R28). -/
def ascopeOf (w : W32) : AScope :=
  match (bits w 18 2).toNat with | 0 => .grove | 1 => .pkg | 2 => .torus | _ => .pool
/-- An atomic: G holds ordering and scope (R28, R203). -/
def decAt (k : AOrd → AScope → Dst → Src → Src → Instr) (w : W32) : Option Instr := do
  let d ← dstOf (dOf w); let a ← srcOf (aOf w); let b ← srcOf (bOf w)
  some (k (ordOf w) (ascopeOf w) d a b)
/-- atom.cas: D names a register with NW = 0 (R203). -/
def decAtr (k : AOrd → AScope → Reg → Src → Src → Instr) (w : W32) : Option Instr := do
  let d ← regOf (dOf w); let a ← srcOf (aOf w); let b ← srcOf (bOf w)
  some (k (ordOf w) (ascopeOf w) d a b)
/-- time.rd: B [0] is M (R419). -/
def decTimeRd (k : Fin 16 → Dst → Bool → Instr) (w : W32) : Option Instr := do
  let d ← dstOf (dOf w); must (aOf w) codeZero; must (bits w 1 5) 0
  some (k (gOf w) d (w.getLsbD 0))
/-- mset: D holds 0b00 and the target code; 8 is MXSTAT (R262). -/
def decMset (w : W32) : Option Instr := do
  must (bits w 16 2) 0; let a ← srcOf (aOf w); must (bOf w) codeZero
  let n := (bits w 12 4).toNat
  if h : n < 8 then some (.mset (gOf w) ⟨n, h⟩ a) else if n = 8 then some (.msetMxstat (gOf w) a) else none
/-- mget: A holds 0b00 and the source code (R262). -/
def decMget (w : W32) : Option Instr := do
  let d ← dstOf (dOf w); must (bits w 10 2) 0; must (bOf w) codeZero
  let n := (bits w 6 4).toNat
  if h : n < 8 then some (.mget (gOf w) d ⟨n, h⟩) else if n = 8 then some (.mgetMxstat (gOf w) d) else none
/-- A V slot with G, Q or its other use of [18], D, A and B general (R28). -/
def decV3 (k : Fin 8 → Bool → Dst → Src → Src → Instr) (w : W32) : Option Instr := do
  let d ← dstOf (dOf w); let a ← srcOf (aOf w); let b ← srcOf (bOf w)
  some (k (gvOf w) (qOf w) d a b)
/-- A V slot whose D is a register with NW = 0. -/
def decV3r (k : Fin 8 → Bool → Reg → Src → Src → Instr) (w : W32) : Option Instr := do
  let d ← regOf (dOf w); let a ← srcOf (aOf w); let b ← srcOf (bOf w)
  some (k (gvOf w) (qOf w) d a b)
/-- A V slot whose D is a predicate (R138). -/
def decV3p (k : Fin 8 → Bool → Reg → Src → Src → Instr) (w : W32) : Option Instr := do
  let d ← predOf (dOf w); let a ← srcOf (aOf w); let b ← srcOf (bOf w)
  some (k (gvOf w) (qOf w) d a b)
/-- A V slot with B fixed at `zero`. -/
def decV2 (k : Fin 8 → Bool → Dst → Src → Instr) (w : W32) : Option Instr := do
  let d ← dstOf (dOf w); let a ← srcOf (aOf w); must (bOf w) codeZero
  some (k (gvOf w) (qOf w) d a)
/-- A V slot whose [18] must be 0. -/
def decV3z (k : Fin 8 → Dst → Src → Src → Instr) (w : W32) : Option Instr := do
  must (bits w 18 1) 0; let d ← dstOf (dOf w); let a ← srcOf (aOf w); let b ← srcOf (bOf w)
  some (k (gvOf w) d a b)
/-- A V store whose [18] must be 0. -/
def decV3rz (k : Fin 8 → Reg → Src → Src → Instr) (w : W32) : Option Instr := do
  must (bits w 18 1) 0; let d ← regOf (dOf w); let a ← srcOf (aOf w); let b ← srcOf (bOf w)
  some (k (gvOf w) d a b)
/-- vpf: D must be 0 (R176). -/
def decV3n (k : Fin 8 → Bool → Src → Src → Instr) (w : W32) : Option Instr := do
  must (dOf w) 0; let a ← srcOf (aOf w); let b ← srcOf (bOf w)
  some (k (gvOf w) (qOf w) a b)
/-- vsel: G is the selector and Q must be 0 (R139). -/
def decVsel (k : Fin 8 → Dst → Src → Src → Instr) (w : W32) : Option Instr := decV3z k w
/-- The operation of vred and vscan, B [1:0] (R142). -/
def redOf (w : W32) : Option RedOp :=
  match (bits w 0 2).toNat with | 0 => some .add | 1 => some .max | 2 => some .min | _ => none
/-- vred, vscan (R142). -/
def decVred (k : Fin 8 → Bool → Dst → Src → RedOp → Instr) (w : W32) : Option Instr := do
  let d ← dstOf (dOf w); let a ← srcOf (aOf w); must (bits w 2 4) 0; let r ← redOf w
  some (k (gvOf w) (qOf w) d a r)
/-- vsticky: A = B = `zero` (R143). -/
def decVsticky (k : Fin 8 → Bool → Dst → Instr) (w : W32) : Option Instr := do
  let d ← dstOf (dOf w); must (aOf w) codeZero; must (bOf w) codeZero
  some (k (gvOf w) (qOf w) d)
/-- vstclr: D = 0, A = `zero`, B a mask (R143). -/
def decVstclr (k : Fin 8 → Bool → Flags6 → Instr) (w : W32) : Option Instr := do
  must (dOf w) 0; must (aOf w) codeZero
  some (k (gvOf w) (qOf w) (bOf w))
/-- vcvt: H in [5:4], T in [3:0] (R83). -/
def decVcvt (k : Fin 8 → Bool → Dst → Src → Fin 4 → Fmt → Instr) (w : W32) : Option Instr := do
  let d ← dstOf (dOf w); let a ← srcOf (aOf w); let t ← fmtOf (bits w 0 4)
  if t = .e2m1 ∨ t = .int4 ∨ t = .sp2 then none
  else some (k (gvOf w) (qOf w) d a (bits w 4 2).toFin t)
/-- vqnt, vdqn: the guard must be p0 and T one of the three block formats (R84, R85). -/
def decVqnt (k : Bool → Dst → Src → BlockFmt → Instr) (w : W32) : Option Instr := do
  must (bits w 19 3) 0; let d ← dstOf (dOf w); let a ← srcOf (aOf w); must (bits w 4 2) 0
  match (bits w 0 4).toNat with
  | 0x3 => some (k (qOf w) d a .bf8)
  | 0x5 => some (k (qOf w) d a .bfp4)
  | 0xA => some (k (qOf w) d a .bi4)
  | _ => none
/-- vrnd: M in [2:0] (R86). -/
def decVrnd (k : Fin 8 → Bool → Dst → Src → RndSel → Instr) (w : W32) : Option Instr := do
  let d ← dstOf (dOf w); let a ← srcOf (aOf w); must (bits w 3 3) 0
  match (bits w 0 3).toNat with
  | 0 => some (k (gvOf w) (qOf w) d a (.mode .rne))
  | 1 => some (k (gvOf w) (qOf w) d a (.mode .rtz))
  | 2 => some (k (gvOf w) (qOf w) d a (.mode .rup))
  | 3 => some (k (gvOf w) (qOf w) d a (.mode .rdn))
  | 4 => some (k (gvOf w) (qOf w) d a (.mode .sto))
  | 7 => some (k (gvOf w) (qOf w) d a .current)
  | _ => none
/-- vsp2: H in [5:4], Dir in [0] (R88). -/
def decVsp2 (w : W32) : Option Instr := do
  let d ← dstOf (dOf w); let a ← srcOf (aOf w); must (bits w 1 3) 0
  if w.getLsbD 0 then some (.vsp2Dec (gvOf w) (qOf w) d a (bits w 4 2).toFin)
  else some (.vsp2Enc (gvOf w) (qOf w) d a (bits w 4 2).toFin)
/-- vupk: X in [3], W in [2], I in [1:0] (R89). -/
def decVupk (k : Fin 8 → Bool → Dst → Src → Bool → Bool → Fin 4 → Instr) (w : W32) : Option Instr := do
  let d ← dstOf (dOf w); let a ← srcOf (aOf w); must (bits w 4 2) 0
  if w.getLsbD 2 = false ∧ 1 < (bits w 0 2).toNat then none
  else some (k (gvOf w) (qOf w) d a (w.getLsbD 3) (w.getLsbD 2) (bits w 0 2).toFin)
/-- vsmrg: G = 0, Q = 0, two register groups of k registers, k from 1 to 5 (R369). -/
def decVsmrg (f : Reg → Reg → Fin 8 → Instr) (w : W32) : Option Instr := do
  must (bits w 18 4) 0; let d ← regOf (dOf w); let a ← regOf (aOf w); must (bits w 3 3) 0
  let k : Fin 8 := (bits w 0 3).toFin
  if k.val = 0 ∨ 5 < k.val ∨ 32 < d.val + k.val ∨ 32 < a.val + k.val then none else some (f d a k)
/-- vlgsz: BASE in [0] (R383). -/
def decVlgsz (k : Fin 8 → Bool → Reg → Src → Bool → Instr) (w : W32) : Option Instr := do
  let d ← regOf (dOf w); let a ← srcOf (aOf w); must (bits w 1 5) 0
  some (k (gvOf w) (qOf w) d a (w.getLsbD 0))

/-! ## Shapes of M slots (R35) -/

/-- [21:19], PA. -/
def paOf (w : W32) : Fin 8 := (bits w 19 3).toFin
/-- [18:16], PB. -/
def pbOf (w : W32) : Fin 8 := (bits w 16 3).toFin
/-- Every field zero. -/
def decM0 (i : Instr) (w : W32) : Option Instr := do must (bits w 0 22) 0; some i
/-- mcall: n in imm16 [5:0] (R250). -/
def decMcall (k : Fin 64 → Instr) (w : W32) : Option Instr := do
  must (bits w 6 16) 0; some (k (bits w 0 6).toFin)
/-- mloop (R251). -/
def decMloop (k : Fin 8 → W16 → Instr) (w : W32) : Option Instr := do
  must (bits w 16 3) 0; some (k (paOf w) (bits w 0 16))
/-- mend: imm16 [0] ALL, with which PA must be 0 (R252). -/
def decMend (k : Bool → Fin 8 → Instr) (w : W32) : Option Instr := do
  must (bits w 1 18) 0
  if w.getLsbD 0 = true ∧ paOf w ≠ 0 then none else some (k (w.getLsbD 0) (paOf w))
/-- mlda: imm16 [0] H (R253). -/
def decMlda (k : Fin 8 → Bool → Instr) (w : W32) : Option Instr := do
  must (bits w 1 18) 0; some (k (paOf w) (w.getLsbD 0))
/-- mmac: imm16 [11:0] K, [12] Z, [15:13] zero (R254). -/
def decMmac (f : Fin 8 → Fin 8 → BitVec 12 → Bool → Instr) (w : W32) : Option Instr := do
  must (bits w 13 3) 0; some (f (paOf w) (pbOf w) (bits w 0 12) (w.getLsbD 12))
/-- mzero (R255). -/
def decMzero (k : Fin 8 → Instr) (w : W32) : Option Instr := do
  must (bits w 0 19) 0; some (k (paOf w))
/-- mdrain: imm16 [2:0] NORM to 4, [3] SCL, without which PB must be 0 (R256). -/
def decMdrain (k : Fin 8 → Fin 8 → Fin 8 → Bool → Instr) (w : W32) : Option Instr := do
  must (bits w 4 12) 0
  let n : Fin 8 := (bits w 0 3).toFin
  if 4 < n.val ∨ (w.getLsbD 3 = false ∧ pbOf w ≠ 0) then none else some (k (paOf w) (pbOf w) n (w.getLsbD 3))
/-- mhada: imm16 [1:0] order, [2] Z (R257). -/
def decMhada (k : Fin 8 → Fin 4 → Bool → Instr) (w : W32) : Option Instr := do
  must (bits w 3 16) 0; some (k (paOf w) (bits w 0 2).toFin (w.getLsbD 2))
/-- mkat: imm16 [2:0] n (R258). -/
def decMkat (k : Fin 8 → Instr) (w : W32) : Option Instr := do
  must (bits w 3 19) 0; some (k (bits w 0 3).toFin)
/-- madd: imm16 [15] R, without which PB must be 0, [14:0] c (R259). -/
def decMadd (k : Fin 8 → Fin 8 → Bool → BitVec 15 → Instr) (w : W32) : Option Instr :=
  if w.getLsbD 15 = false ∧ pbOf w ≠ 0 then none else some (k (paOf w) (pbOf w) (w.getLsbD 15) (bits w 0 15))
/-- mprog: imm16 [5:0] n, [6] V; with V = 0, PA and PB must be 0 (R260). -/
def decMprog (w : W32) : Option Instr := do
  must (bits w 7 9) 0
  if w.getLsbD 6 then some (.mprogSet (paOf w) (pbOf w) (bits w 0 6).toFin)
  else do must (bits w 16 6) 0; some (.mprogClr (bits w 0 6).toFin)

/-! ## Shapes of C slots (R36) -/

/-- [15:10], the A field. -/
def caOf (w : W32) : BitVec 6 := bits w 10 6
/-- [9:4], the B field. -/
def cbOf (w : W32) : BitVec 6 := bits w 4 6
/-- E naming one of the two copy engines (R210). -/
def engOf (w : W32) : Option (Fin 2) := do
  must (bits w 17 1) 0; some (bits w 16 1).toFin
/-- A flag of F: bit k of the slot, k from 0 to 3. -/
def fOf (w : W32) (k : Nat) : Bool := w.getLsbD k

/-- Two operands, E and F zero. -/
def decC2 (k : Fin 16 → Src → Src → Instr) (w : W32) : Option Instr := do
  must (bits w 16 2) 0; let a ← srcCOf (caOf w); let b ← srcCOf (cbOf w); must (bits w 0 4) 0
  some (k (gOf w) a b)
/-- One operand, B = `zero`, E and F zero. -/
def decC1 (k : Fin 16 → Src → Instr) (w : W32) : Option Instr := do
  must (bits w 16 2) 0; let a ← srcCOf (caOf w); must (cbOf w) codeZero; must (bits w 0 4) 0
  some (k (gOf w) a)
/-- A destination register in A and an operand in B, E and F zero (R36). -/
def decCdb (k : Fin 16 → Reg → Src → Instr) (w : W32) : Option Instr := do
  must (bits w 16 2) 0; let d ← regOf (caOf w); let b ← srcCOf (cbOf w); must (bits w 0 4) 0
  some (k (gOf w) d b)
/-- cp.src, cp.dst: F [1:0] is H, 0 or 1, and with H = 1 A must be `zero` (R222). -/
def decCpsrc (k : Fin 16 → Fin 2 → Bool → Src → Src → Instr) (w : W32) : Option Instr := do
  let e ← engOf w; must (bits w 1 3) 0; let a ← srcCOf (caOf w); let b ← srcCOf (cbOf w)
  if fOf w 0 = true ∧ a ≠ .zero then none else some (k (gOf w) e (fOf w 0) a b)
/-- cp.shp: F [0] is H (R223). -/
def decCpshp (k : Fin 16 → Fin 2 → Bool → Src → Instr) (w : W32) : Option Instr := do
  let e ← engOf w; must (caOf w) codeZero; let b ← srcCOf (cbOf w); must (bits w 1 3) 0
  some (k (gOf w) e (fOf w 0) b)
/-- cp.fmt: F [0] is K (R224). -/
def decCpfmt (w : W32) : Option Instr := do
  let e ← engOf w; must (caOf w) codeZero; let b ← srcCOf (cbOf w); must (bits w 1 3) 0
  some (if fOf w 0 then .cpFmtCtl (gOf w) e b else .cpFmt (gOf w) e b)
/-- cp.go: F holds ACQ, REL, IN and CW; without CW, A and B must be `zero` (R226). -/
def decCpgo (k : Fin 16 → Fin 2 → Bool → Bool → Bool → Bool → Src → Src → Instr) (w : W32) : Option Instr := do
  let e ← engOf w; let a ← srcCOf (caOf w); let b ← srcCOf (cbOf w)
  if fOf w 3 = false ∧ ¬(a = .zero ∧ b = .zero) then none
  else some (k (gOf w) e (fOf w 0) (fOf w 1) (fOf w 2) (fOf w 3) a b)
/-- cp.fill: F [0] is FM (R225). -/
def decCpfill (k : Fin 16 → Fin 2 → Bool → Src → Instr) (w : W32) : Option Instr := decCpshp k w
/-- cp.stat: F [0] is C (R227). -/
def decCpstat (k : Fin 16 → Fin 2 → Bool → Reg → Instr) (w : W32) : Option Instr := do
  let e ← engOf w; let d ← regOf (caOf w); must (cbOf w) codeZero; must (bits w 1 3) 0
  some (k (gOf w) e (fOf w 0) d)
/-- cp.cancel (R228). -/
def decCpcancel (k : Fin 16 → Fin 2 → Src → Instr) (w : W32) : Option Instr := do
  let e ← engOf w; must (caOf w) codeZero; let b ← srcCOf (cbOf w); must (bits w 0 4) 0
  some (k (gOf w) e b)
/-- res.unpin: F [0] is ALL (R277). -/
def decCunpin (k : Fin 16 → Bool → Src → Instr) (w : W32) : Option Instr := do
  must (bits w 16 2) 0; let a ← srcCOf (caOf w); must (cbOf w) codeZero; must (bits w 1 3) 0
  some (k (gOf w) (fOf w 0) a)
/-- rma.conn: F [0] is CLOSE, with which B must be `zero` (R314). -/
def decRmaconn (w : W32) : Option Instr := do
  must (bits w 16 2) 0; let a ← srcCOf (caOf w); must (bits w 1 3) 0
  if fOf w 0 then do must (cbOf w) codeZero; some (.rmaConnClose (gOf w) a)
  else do let b ← srcCOf (cbOf w); some (.rmaConn (gOf w) a b)
/-- rma.put: E [0] is NT (R313, R315). -/
def decRmaput (k : Fin 16 → Bool → Src → Src → Instr) (w : W32) : Option Instr := do
  must (bits w 17 1) 0; let a ← srcCOf (caOf w); let b ← srcCOf (cbOf w); must (bits w 0 4) 0
  some (k (gOf w) (w.getLsbD 16) a b)
/-- rma.get: F [0] is CW (R316). -/
def decRmaget (k : Fin 16 → Fin 2 → Bool → Src → Src → Instr) (w : W32) : Option Instr := do
  let e ← engOf w; let a ← srcCOf (caOf w); let b ← srcCOf (cbOf w); must (bits w 1 3) 0
  some (k (gOf w) e (fOf w 0) a b)
/-- rma.red: E [0] is NT and F the operation, whose values above 5 trap FORMAT when it runs (R317). -/
def decRmared (k : Fin 16 → Bool → Fin 16 → Src → Src → Instr) (w : W32) : Option Instr := do
  must (bits w 17 1) 0; let a ← srcCOf (caOf w); let b ← srcCOf (cbOf w)
  some (k (gOf w) (w.getLsbD 16) (bits w 0 4).toFin a b)
/-- ch.send, ch.red, ch.bcast, ch.agat: F [1] is REL (R334). -/
def decChop (k : Fin 16 → Bool → Src → Instr) (w : W32) : Option Instr := do
  must (bits w 16 2) 0; let a ← srcCOf (caOf w); must (cbOf w) codeZero; must (bits w 2 2) 0; must (bits w 0 1) 0
  some (k (gOf w) (fOf w 1) a)
/-- ch.wait: E is the event, F [0] ACQ (R336). -/
def decChwait (k : Fin 16 → ChEvent → Bool → Src → Src → Instr) (w : W32) : Option Instr := do
  let a ← srcCOf (caOf w); let b ← srcCOf (cbOf w); must (bits w 1 3) 0
  match (bits w 16 2).toNat with
  | 0 => some (k (gOf w) .sr (fOf w 0) a b)
  | 1 => some (k (gOf w) .lr (fOf w 0) a b)
  | 2 => some (k (gOf w) .af (fOf w 0) a b)
  | _ => none
/-- at.q: F holds ARR, REL and ACC (R357). -/
def decAtq (k : Fin 16 → Bool → Bool → Bool → Src → Src → Instr) (w : W32) : Option Instr := do
  must (bits w 16 2) 0; let a ← srcCOf (caOf w); let b ← srcCOf (cbOf w); must (bits w 3 1) 0
  some (k (gOf w) (fOf w 0) (fOf w 1) (fOf w 2) a b)
/-- kv.app: F holds CW and REL; without CW, B must be `zero` (R357). -/
def decKvapp (k : Fin 16 → Bool → Bool → Src → Src → Instr) (w : W32) : Option Instr := do
  must (bits w 16 2) 0; let a ← srcCOf (caOf w); let b ← srcCOf (cbOf w); must (bits w 2 2) 0
  if fOf w 0 = false ∧ b ≠ .zero then none else some (k (gOf w) (fOf w 0) (fOf w 1) a b)
/-- pm.wr: F [0] is KIND (R357). -/
def decPmwr (w : W32) : Option Instr := do
  must (bits w 16 2) 0; let a ← srcCOf (caOf w); must (cbOf w) codeZero; must (bits w 1 3) 0
  some (if fOf w 0 then .pmWrUnit (gOf w) a else .pmWrSeq (gOf w) a)
/-- pm.rebal: F [0] is CW (R357). -/
def decPmrebal (k : Fin 16 → Bool → Src → Src → Instr) (w : W32) : Option Instr := do
  must (bits w 16 2) 0; let a ← srcCOf (caOf w); let b ← srcCOf (cbOf w); must (bits w 1 3) 0
  some (k (gOf w) (fOf w 0) a b)
/-- tier.in: F [0] is CW, without which B must be `zero` (R357). -/
def decTierin (k : Fin 16 → Fin 2 → Bool → Src → Src → Instr) (w : W32) : Option Instr := do
  let e ← engOf w; let a ← srcCOf (caOf w); let b ← srcCOf (cbOf w); must (bits w 1 3) 0
  if fOf w 0 = false ∧ b ≠ .zero then none else some (k (gOf w) e (fOf w 0) a b)
/-- tm.match: F [0] is BK (R380). -/
def decTmmatch (k : Fin 16 → Bool → Reg → Src → Instr) (w : W32) : Option Instr := do
  must (bits w 16 2) 0; let d ← regOf (caOf w); let b ← srcCOf (cbOf w); must (bits w 1 3) 0
  some (k (gOf w) (fOf w 0) d b)
/-- tm.merge: F [0] is BK and [1] FIN (R380). -/
def decTmmerge (k : Fin 16 → Bool → Bool → Src → Src → Instr) (w : W32) : Option Instr := do
  must (bits w 16 2) 0; let a ← srcCOf (caOf w); let b ← srcCOf (cbOf w); must (bits w 2 2) 0
  some (k (gOf w) (fOf w 0) (fOf w 1) a b)
/-- tm.unmrg: F [0] is BK (R380). -/
def decTmunmrg (k : Fin 16 → Bool → Src → Src → Instr) (w : W32) : Option Instr := do
  must (bits w 16 2) 0; let a ← srcCOf (caOf w); let b ← srcCOf (cbOf w); must (bits w 1 3) 0
  some (k (gOf w) (fOf w 0) a b)

/-! ## Shapes of B slots (R37) -/

/-- BR form: P in [21:17], N in [16], off16 (R110). -/
def decBr (k : Reg → Bool → W16 → Instr) (w : W32) : Option Instr :=
  some (k (bits w 17 5).toFin (w.getLsbD 16) (bits w 0 16))
/-- jr: D [4:0] a link register or 0, NW = 0 (R111). -/
def decJr (k : Fin 16 → Reg → Src → Src → Instr) (w : W32) : Option Instr := decS3r k w
/-- loop: P [4:2] and N must be 0 (R110). -/
def decLoop (k : Fin 4 → W16 → Instr) (w : W32) : Option Instr := do
  must (bits w 19 3) 0; must (bits w 16 1) 0; some (k (bits w 17 2).toFin (bits w 0 16))
/-- lset: D [5:2] = 0 and B = `zero` (R112). -/
def decLset (k : Fin 16 → Fin 4 → Src → Instr) (w : W32) : Option Instr := do
  must (bits w 14 4) 0; let a ← srcOf (aOf w); must (bOf w) codeZero
  some (k (gOf w) (bits w 12 2).toFin a)
/-- A predicate field of the BP form, five bits at `lo`. -/
def pAt (w : W32) (lo : Nat) : Reg := (bits w lo 5).toFin
/-- BP form with PD, PA and PB; PD is not p0 and F is 0 (R113). -/
def decBp3 (k : Reg → Reg → Reg → Instr) (w : W32) : Option Instr := do
  must (bits w 0 7) 0
  if pAt w 17 = 0 then none else some (k (pAt w 17) (pAt w 12) (pAt w 7))
/-- pnot: PB and F are 0 (R113). -/
def decBp2 (k : Reg → Reg → Instr) (w : W32) : Option Instr := do
  must (bits w 0 12) 0
  if pAt w 17 = 0 then none else some (k (pAt w 17) (pAt w 12))
/-- pset: PA, PB and F [6:1] are 0 (R113). -/
def decPset (k : Reg → Bool → Instr) (w : W32) : Option Instr := do
  must (bits w 1 16) 0
  if pAt w 17 = 0 then none else some (k (pAt w 17) (w.getLsbD 0))
/-- fmt.get: A and B must both be 0x00 (R91). -/
def decFmtget (k : Fin 16 → Dst → Instr) (w : W32) : Option Instr := do
  let d ← dstOf (dOf w); must (bits w 0 12) 0; some (k (gOf w) d)
/-- The scope code of `phase` (R188). -/
def scopeOf (n : Nat) : Option Scope :=
  match n with
  | 0 => some .core | 1 => some .grove | 2 => some .pkg | 3 => some .torus | 4 => some .pool | _ => none
/-- phase: G, D and A fixed, B [5:3] = 0, B [2:0] a scope (R201). -/
def decPhase (k : Scope → Instr) (w : W32) : Option Instr := do
  must (bits w 12 10) 0; must (aOf w) codeZero; must (bits w 3 3) 0
  let sc ← scopeOf (bits w 0 3).toNat
  some (k sc)
/-- fence: B [0] L and B [1] E, not both 0 (R204). -/
def decFence (k : Fin 16 → Bool → Bool → Instr) (w : W32) : Option Instr := do
  must (dOf w) 0; must (aOf w) codeZero; must (bits w 2 4) 0
  if bits w 0 2 = 0 then none else some (k (gOf w) (w.getLsbD 0) (w.getLsbD 1))
/-- waita: D [1] C and D [0] T (R206). -/
def decWaita (k : Fin 16 → Bool → Bool → Src → Src → Instr) (w : W32) : Option Instr := do
  must (bits w 14 4) 0; let a ← srcOf (aOf w); let b ← srcOf (bOf w)
  some (k (gOf w) (w.getLsbD 13) (w.getLsbD 12) a b)
/-- rfe: unguarded, B [0] NEXT (R411). -/
def decRfe (k : Bool → Instr) (w : W32) : Option Instr := do
  must (bits w 12 10) 0; must (aOf w) codeZero; must (bits w 1 5) 0; some (k (w.getLsbD 0))
/-- fuse: SZ in B [1:0], T in B [2] (R411, R416). -/
def decFuse (k : Fin 16 → GangForm → Instr) (w : W32) : Option Instr := do
  must (dOf w) 0; must (aOf w) codeZero
  match (bOf w).toNat with
  | 1 => some (k (gOf w) .w2) | 2 => some (k (gOf w) .w4) | 5 => some (k (gOf w) .t2) | _ => none
/-- sct.rel: B [0] W (R411). -/
def decSctrel (k : Fin 16 → Bool → Src → Instr) (w : W32) : Option Instr := do
  must (dOf w) 0; let a ← srcOf (aOf w); must (bits w 1 5) 0; some (k (gOf w) (w.getLsbD 0) a)

/-! ## Units -/

/-- A field that is not legal rejects the word by that name. -/
def field : Option Instr → Except Reject Instr
  | some i => .ok i
  | none => .error .badField

/-- The opcodes of the S unit (R54). -/
def decodeS (w : W32) : Except Reject Instr :=
  match (opOf w).toNat with
  | 0x00 => field (decS3 .add w)
  | 0x01 => field (decS3 .sub w)
  | 0x02 => field (decS3 .mul w)
  | 0x03 => field (decS3 .mulh w)
  | 0x04 => field (decS3 .mulhu w)
  | 0x05 => field (decS3 .div w)
  | 0x06 => field (decS3 .divu w)
  | 0x07 => field (decS3 .rem w)
  | 0x08 => field (decS3 .remu w)
  | 0x09 => field (decS3 .and w)
  | 0x0A => field (decS3 .or w)
  | 0x0B => field (decS3 .xor w)
  | 0x0C => field (decS3 .andn w)
  | 0x0D => field (decS3 .shl w)
  | 0x0E => field (decS3 .shr w)
  | 0x0F => field (decS3 .sar w)
  | 0x10 => field (decS3 .rotl w)
  | 0x11 => field (decS3 .min w)
  | 0x12 => field (decS3 .max w)
  | 0x13 => field (decS3 .minu w)
  | 0x14 => field (decS3 .maxu w)
  | 0x15 => field (decS2 .clz w)
  | 0x16 => field (decS2 .ctz w)
  | 0x17 => field (decS2 .popc w)
  | 0x18 => field (decS3 .bfx w)
  | 0x19 => field (decS3r .bfi w)
  | 0x1A => field (decS3 .sext w)
  | 0x1B => field (decS3 .addsat w)
  | 0x1C => field (decS3p .ceq w)
  | 0x1D => field (decS3p .cne w)
  | 0x1E => field (decS3p .clt w)
  | 0x1F => field (decS3p .cltu w)
  | 0x20 => field (decS3p .cle w)
  | 0x21 => field (decS3p .cleu w)
  | 0x22 => field (decS3 .sel w)
  | 0x23 => field (decS2 .mov w)
  | 0x24 => field (decS3 .ldb w)
  | 0x25 => field (decS3 .ldh w)
  | 0x26 => field (decS3 .ldw w)
  | 0x27 => field (decS3 .ldd w)
  | 0x28 => field (decS3r .stb w)
  | 0x29 => field (decS3r .sth w)
  | 0x2A => field (decS3r .stw w)
  | 0x2B => field (decS3r .std w)
  | 0x2C => field (decS3 .ldc w)
  | 0x2D => field (decS3 .ldro w)
  | 0x2E => field (decS3 .ldpm w)
  | 0x2F => field (decS3r .stpm w)
  | 0x30 => field (decAt .atomAdd w)
  | 0x31 => field (decAt .atomMin w)
  | 0x32 => field (decAt .atomMax w)
  | 0x33 => field (decAt .atomAnd w)
  | 0x34 => field (decAt .atomOr w)
  | 0x35 => field (decAt .atomXor w)
  | 0x36 => field (decAt .atomXchg w)
  | 0x37 => field (decAtr .atomCas w)
  | 0x38 => field (decS2 .sysRd w)
  | 0x39 => field (decS3n .sysWr w)
  | 0x3A => field (decTimeRd .timeRd w)
  | 0x3B => field (decS0 .roinv w)
  | 0x3C => field (decS3n .tlbInv w)
  | 0x3D => field (decMset w)
  | 0x3E => field (decMget w)
  | _ => .error .unassigned

/-- The opcodes of the V unit (R54). -/
def decodeV (w : W32) : Except Reject Instr :=
  match (opOf w).toNat with
  | 0x00 => field (decV3 .vadd w)
  | 0x01 => field (decV3 .vsub w)
  | 0x02 => field (decV3 .vmul w)
  | 0x03 => field (decV3r .vfma w)
  | 0x04 => field (decV3r .vfms w)
  | 0x05 => field (decV3r .vfnma w)
  | 0x06 => field (decV3 .vmin w)
  | 0x07 => field (decV3 .vmax w)
  | 0x08 => field (decV2 .vabs w)
  | 0x09 => field (decV2 .vneg w)
  | 0x0A => field (decV3 .vdiv w)
  | 0x0B => field (decV2 .vsqrt w)
  | 0x0C => field (decV2 .vrcp w)
  | 0x0D => field (decV2 .vrsqrt w)
  | 0x0E => field (decV2 .vexp2 w)
  | 0x0F => field (decV2 .vlog2 w)
  | 0x10 => field (decV3 .vand w)
  | 0x11 => field (decV3 .vor w)
  | 0x12 => field (decV3 .vxor w)
  | 0x13 => field (decV3 .vshl w)
  | 0x14 => field (decV3 .vshr w)
  | 0x15 => field (decV3 .vsar w)
  | 0x16 => field (decV3 .vmulh w)
  | 0x17 => field (decV3r .vdot4 w)
  | 0x18 => field (decV3p .vceq w)
  | 0x19 => field (decV3p .vcne w)
  | 0x1A => field (decV3p .vclt w)
  | 0x1B => field (decV3p .vcle w)
  | 0x1C => field (decV3p .vcun w)
  | 0x1D => field (decVsel .vsel w)
  | 0x1E => field (decV2 .vmov w)
  | 0x1F => field (decV2 .vbcast w)
  | 0x20 => field (decV3 .vext w)
  | 0x21 => field (decV3r .vins w)
  | 0x22 => field (decV3 .vperm w)
  | 0x23 => field (decV3 .vrot w)
  | 0x24 => field (decVred .vred w)
  | 0x25 => field (decVred .vscan w)
  | 0x26 => field (decVsticky .vsticky w)
  | 0x27 => field (decVstclr .vstclr w)
  | 0x28 => field (decVcvt .vcvt w)
  | 0x29 => field (decVqnt .vqnt w)
  | 0x2A => field (decVqnt .vdqn w)
  | 0x2B => field (decVrnd .vrnd w)
  | 0x2C => field (decV3 .vscl w)
  | 0x2D => field (decVsp2 w)
  | 0x2E => field (decV3 .vpk w)
  | 0x2F => field (decVupk .vupk w)
  | 0x30 => field (decV3 .vld w)
  | 0x31 => field (decV3r .vst w)
  | 0x32 => field (decV3 .vlda w)
  | 0x33 => field (decV3rz .vsta w)
  | 0x34 => field (decV3z .vldc w)
  | 0x35 => field (decV3rz .vstc w)
  | 0x36 => field (decV3 .vgat w)
  | 0x37 => field (decV3rz .vsct w)
  | 0x38 => field (decV3n .vpf w)
  | 0x39 => field (decVsmrg .vsmrg w)
  | 0x3A => field (decVlgsz .vlgsz w)
  | _ => .error .unassigned

/-- The opcodes of the M unit (R54). -/
def decodeM (w : W32) : Except Reject Instr :=
  match (opOf w).toNat with
  | 0x00 => field (decMcall .mcall w)
  | 0x01 => field (decM0 .mret w)
  | 0x02 => field (decMloop .mloop w)
  | 0x03 => field (decMend .mend w)
  | 0x04 => field (decMlda .mlda w)
  | 0x05 => field (decMmac .mmac w)
  | 0x06 => field (decMzero .mzero w)
  | 0x07 => field (decMdrain .mdrain w)
  | 0x08 => field (decMhada .mhada w)
  | 0x09 => field (decMkat .mkat w)
  | 0x0A => field (decMadd .madd w)
  | 0x0B => field (decMprog w)
  | 0x0C => field (decM0 .msync w)
  | _ => .error .unassigned

/-- The opcodes of the C unit (R54). -/
def decodeC (w : W32) : Except Reject Instr :=
  match (opOf w).toNat with
  | 0x00 => field (decCpsrc .cpSrc w)
  | 0x01 => field (decCpsrc .cpDst w)
  | 0x02 => field (decCpshp .cpShp w)
  | 0x03 => field (decCpfmt w)
  | 0x04 => field (decCpgo .cpGo w)
  | 0x05 => field (decCpfill .cpFill w)
  | 0x06 => field (decCpstat .cpStat w)
  | 0x07 => field (decCpcancel .cpCancel w)
  | 0x08 => field (decC2 .cpTdef w)
  | 0x10 => field (decCdb .resAlloc w)
  | 0x11 => field (decC2 .resLoad w)
  | 0x12 => field (decC1 .resPin w)
  | 0x13 => field (decCunpin .resUnpin w)
  | 0x14 => field (decC1 .resRevoke w)
  | 0x15 => field (decC1 .resReload w)
  | 0x16 => field (decCdb .resQ w)
  | 0x18 => field (decRmaconn w)
  | 0x19 => field (decRmaput .rmaPut w)
  | 0x1A => field (decRmaget .rmaGet w)
  | 0x1B => field (decRmared .rmaRed w)
  | 0x1C => field (decCdb .rmaStat w)
  | 0x20 => field (decChop .chSend w)
  | 0x21 => field (decC1 .chRecv w)
  | 0x22 => field (decChop .chRed w)
  | 0x23 => field (decChop .chBcast w)
  | 0x24 => field (decChop .chAgat w)
  | 0x25 => field (decChwait .chWait w)
  | 0x26 => field (decCdb .chQ w)
  | 0x28 => field (decAtq .atQ w)
  | 0x29 => field (decKvapp .kvApp w)
  | 0x2A => field (decC2 .pmRd w)
  | 0x2B => field (decPmwr w)
  | 0x2C => field (decPmrebal .pmRebal w)
  | 0x2D => field (decCdb .pxHash w)
  | 0x2E => field (decCdb .pxLook w)
  | 0x2F => field (decCdb .pxPin w)
  | 0x30 => field (decC2 .pxUnpin w)
  | 0x31 => field (decCdb .pxIns w)
  | 0x32 => field (decTierin .tierIn w)
  | 0x38 => field (decTmmatch .tmMatch w)
  | 0x39 => field (decTmmerge .tmMerge w)
  | 0x3A => field (decTmunmrg .tmUnmrg w)
  | 0x3B => field (decC1 .tmFree w)
  | 0x3C => field (decC2 .tmSpill w)
  | 0x3D => field (decCdb .tmFill w)
  | _ => .error .unassigned

/-- The opcodes of the B unit (R54). -/
def decodeB (w : W32) : Except Reject Instr :=
  match (opOf w).toNat with
  | 0x00 => field (decBr .br w)
  | 0x01 => field (decBr .jal w)
  | 0x02 => field (decJr .jr w)
  | 0x03 => field (decLoop .loop w)
  | 0x04 => field (decLset .lset w)
  | 0x05 => field (decBp3 .pand w)
  | 0x06 => field (decBp3 .por w)
  | 0x07 => field (decBp3 .pxor w)
  | 0x08 => field (decBp3 .pandn w)
  | 0x09 => field (decBp2 .pnot w)
  | 0x0A => field (decBp3 .pany w)
  | 0x0B => field (decBp3 .pall w)
  | 0x0C => field (decPset .pset w)
  | 0x10 => field (decS3n .fmtSet w)
  | 0x11 => field (decFmtget .fmtGet w)
  | 0x14 => field (decPhase .phase w)
  | 0x15 => field (decSd .phin w)
  | 0x16 => field (decFence .fence w)
  | 0x17 => field (decS3n .barInit w)
  | 0x18 => field (decS2n .barArr w)
  | 0x19 => field (decS3n .barWait w)
  | 0x1A => field (decWaita .waita w)
  | 0x20 => field (decS3n .tspawn w)
  | 0x21 => field (decS0 .texit w)
  | 0x22 => field (decS2n .trap w)
  | 0x23 => field (decRfe .rfe w)
  | 0x24 => field (decFuse .fuse w)
  | 0x25 => field (decS0 .decpl w)
  | 0x26 => field (decS0 .rejoin w)
  | 0x27 => field (decS2n .prio w)
  | 0x28 => field (decS3n .sctPin w)
  | 0x29 => field (decSctrel .sctRel w)
  | 0x2A => field (decS0 .halt w)
  | _ => .error .unassigned

/-- One word of a group (R26, R27): the unit code picks the unit's table. -/
def decodeSlot (w : W32) : Except Reject Slot :=
  match (bits w 28 3).toNat with
  | 0 => (decodeS w).map .instr
  | 1 => (decodeV w).map .instr
  | 2 => (decodeM w).map .instr
  | 3 => (decodeC w).map .instr
  | 4 => (decodeB w).map .instr
  | 5 => .ok (.lit (bits w 0 28))
  | 6 => .error .reservedUnit
  | _ => if bits w 0 28 = 0 then .ok .pad else .error .padNotZero

/-- [31], the stop bit (R26). -/
def stopOf (w : W32) : Bool := w.getLsbD 31

/-- The four bytes of a word as memory holds them, the lowest address first (R5, R26). -/
def wordBytes (w : W32) : List Byte :=
  [w.extractLsb' 0 8, w.extractLsb' 8 8, w.extractLsb' 16 8, w.extractLsb' 24 8]

/-- The word that four bytes in memory order hold (R5, R26). -/
def wordOfBytes (b0 b1 b2 b3 : Byte) : W32 := b3 ++ b2 ++ b1 ++ b0

/-- Decoding from a byte list: one slot and the bytes after it. -/
def decodeBytes : List Byte → Except Reject (Slot × List Byte)
  | b0 :: b1 :: b2 :: b3 :: rest => (decodeSlot (wordOfBytes b0 b1 b2 b3)).map (·, rest)
  | _ => .error .badField

/-- The instruction the decoder reads from a slot's bits. The table of this hardware gives no row any
bits, so `nbits` only says how many bits of `w` count; a slot has 32. -/
def decodeTableWord (nbits w : Nat) : Option Instr :=
  match decodeBytes (wordBytes (BitVec.ofNat 32 (w % 2 ^ nbits))) with
  | .ok (.instr i, _) => some i
  | _ => none

/-! ## The encoder -/

/-- A word from its unit, its opcode and its 22 low bits, the stop bit clear (R26). -/
def slotWord (u : BitVec 3) (op : BitVec 6) (rest : BitVec 22) : W32 := 0#1 ++ u ++ op ++ rest
def unitS : BitVec 3 := 0
def unitV : BitVec 3 := 1
def unitM : BitVec 3 := 2
def unitC : BitVec 3 := 3
def unitB : BitVec 3 := 4
/-- One bit. -/
def bit (b : Bool) : BitVec 1 := BitVec.ofBool b
/-- A number of a finite set as a field of n bits. -/
def num {m : Nat} (n : Nat) (x : Fin m) : BitVec n := BitVec.ofNat n x.val

/-- S3 (R28). -/
def s3Word (u : BitVec 3) (op : BitVec 6) (g : BitVec 4) (d a b : BitVec 6) : W32 := slotWord u op (g ++ d ++ a ++ b)
def encS3 (u : BitVec 3) (op : BitVec 6) (g : Fin 16) (d : Dst) (a b : Src) : W32 :=
  s3Word u op (num 4 g) (dstCode d) (srcCode a) (srcCode b)
def encS3r (u : BitVec 3) (op : BitVec 6) (g : Fin 16) (d : Reg) (a b : Src) : W32 :=
  s3Word u op (num 4 g) (num 6 d) (srcCode a) (srcCode b)
def encS3p (u : BitVec 3) (op : BitVec 6) (g : Fin 16) (p : Reg) (a b : Src) : W32 :=
  s3Word u op (num 4 g) (num 6 p) (srcCode a) (srcCode b)
def encS2 (u : BitVec 3) (op : BitVec 6) (g : Fin 16) (d : Dst) (a : Src) : W32 :=
  s3Word u op (num 4 g) (dstCode d) (srcCode a) codeZero
def encS3n (u : BitVec 3) (op : BitVec 6) (g : Fin 16) (a b : Src) : W32 :=
  s3Word u op (num 4 g) 0 (srcCode a) (srcCode b)
def encS2n (u : BitVec 3) (op : BitVec 6) (g : Fin 16) (a : Src) : W32 :=
  s3Word u op (num 4 g) 0 (srcCode a) codeZero
def encS0 (u : BitVec 3) (op : BitVec 6) (g : Fin 16) : W32 := s3Word u op (num 4 g) 0 codeZero codeZero
def encSd (u : BitVec 3) (op : BitVec 6) (g : Fin 16) (d : Dst) : W32 := s3Word u op (num 4 g) (dstCode d) codeZero codeZero
/-- The ordering code of R28. -/
def ordCode : AOrd → BitVec 2 | .rlx => 0 | .acq => 1 | .rel => 2 | .acqrel => 3
/-- The atomic scope code of R28. -/
def ascopeCode : AScope → BitVec 2 | .grove => 0 | .pkg => 1 | .torus => 2 | .pool => 3
def encAt (op : BitVec 6) (o : AOrd) (sc : AScope) (d : Dst) (a b : Src) : W32 :=
  s3Word unitS op (ordCode o ++ ascopeCode sc) (dstCode d) (srcCode a) (srcCode b)
def encAtr (op : BitVec 6) (o : AOrd) (sc : AScope) (d : Reg) (a b : Src) : W32 :=
  s3Word unitS op (ordCode o ++ ascopeCode sc) (num 6 d) (srcCode a) (srcCode b)
def encTimeRd (op : BitVec 6) (g : Fin 16) (d : Dst) (m : Bool) : W32 :=
  s3Word unitS op (num 4 g) (dstCode d) codeZero (0#5 ++ bit m)
def encMset (op : BitVec 6) (g : Fin 16) (n : Fin 8) (a : Src) : W32 :=
  s3Word unitS op (num 4 g) (num 6 n) (srcCode a) codeZero
def encMsetMx (op : BitVec 6) (g : Fin 16) (a : Src) : W32 := s3Word unitS op (num 4 g) 8 (srcCode a) codeZero
def encMget (op : BitVec 6) (g : Fin 16) (d : Dst) (n : Fin 8) : W32 :=
  s3Word unitS op (num 4 g) (dstCode d) (num 6 n) codeZero
def encMgetMx (op : BitVec 6) (g : Fin 16) (d : Dst) : W32 := s3Word unitS op (num 4 g) (dstCode d) 8 codeZero

/-- The V layout of R28. -/
def v3Word (op : BitVec 6) (g : BitVec 3) (q : Bool) (d a b : BitVec 6) : W32 :=
  slotWord unitV op (g ++ bit q ++ d ++ a ++ b)
def encV3 (op : BitVec 6) (g : Fin 8) (q : Bool) (d : Dst) (a b : Src) : W32 :=
  v3Word op (num 3 g) q (dstCode d) (srcCode a) (srcCode b)
def encV3r (op : BitVec 6) (g : Fin 8) (q : Bool) (d : Reg) (a b : Src) : W32 :=
  v3Word op (num 3 g) q (num 6 d) (srcCode a) (srcCode b)
def encV3p (op : BitVec 6) (g : Fin 8) (q : Bool) (p : Reg) (a b : Src) : W32 :=
  v3Word op (num 3 g) q (num 6 p) (srcCode a) (srcCode b)
def encV2 (op : BitVec 6) (g : Fin 8) (q : Bool) (d : Dst) (a : Src) : W32 :=
  v3Word op (num 3 g) q (dstCode d) (srcCode a) codeZero
def encV3z (op : BitVec 6) (g : Fin 8) (d : Dst) (a b : Src) : W32 :=
  v3Word op (num 3 g) false (dstCode d) (srcCode a) (srcCode b)
def encV3rz (op : BitVec 6) (g : Fin 8) (d : Reg) (a b : Src) : W32 :=
  v3Word op (num 3 g) false (num 6 d) (srcCode a) (srcCode b)
def encV3n (op : BitVec 6) (g : Fin 8) (k : Bool) (a b : Src) : W32 :=
  v3Word op (num 3 g) k 0 (srcCode a) (srcCode b)
def encVsel (op : BitVec 6) (p : Fin 8) (d : Dst) (a b : Src) : W32 := encV3z op p d a b
/-- B [1:0] of vred and vscan (R142). -/
def redCode : RedOp → BitVec 2 | .add => 0 | .max => 1 | .min => 2
def encVred (op : BitVec 6) (g : Fin 8) (q : Bool) (d : Dst) (a : Src) (r : RedOp) : W32 :=
  v3Word op (num 3 g) q (dstCode d) (srcCode a) (0#4 ++ redCode r)
def encVsticky (op : BitVec 6) (g : Fin 8) (q : Bool) (d : Dst) : W32 :=
  v3Word op (num 3 g) q (dstCode d) codeZero codeZero
def encVstclr (op : BitVec 6) (g : Fin 8) (q : Bool) (mask : Flags6) : W32 := v3Word op (num 3 g) q 0 codeZero mask
def encVcvt (op : BitVec 6) (g : Fin 8) (q : Bool) (d : Dst) (a : Src) (h : Fin 4) (t : Fmt) : W32 :=
  v3Word op (num 3 g) q (dstCode d) (srcCode a) (num 2 h ++ fmtCode t)
/-- The format codes of the block formats (R75). -/
def blockCode : BlockFmt → BitVec 4 | .bf8 => 0x3 | .bfp4 => 0x5 | .bi4 => 0xA
def encVqnt (op : BitVec 6) (q : Bool) (d : Dst) (a : Src) (t : BlockFmt) : W32 :=
  v3Word op 0 q (dstCode d) (srcCode a) (0#2 ++ blockCode t)
/-- The mode code of R76. -/
def rmCode : RMode → BitVec 3 | .rne => 0 | .rtz => 1 | .rup => 2 | .rdn => 3 | .sto => 4
def encVrnd (op : BitVec 6) (g : Fin 8) (q : Bool) (d : Dst) (a : Src) (m : RndSel) : W32 :=
  v3Word op (num 3 g) q (dstCode d) (srcCode a) (0#3 ++ (match m with | .mode r => rmCode r | .current => 7))
def encVsp2 (op : BitVec 6) (dir : Bool) (g : Fin 8) (q : Bool) (d : Dst) (a : Src) (h : Fin 4) : W32 :=
  v3Word op (num 3 g) q (dstCode d) (srcCode a) (num 2 h ++ 0#3 ++ bit dir)
def encVupk (op : BitVec 6) (g : Fin 8) (q : Bool) (d : Dst) (a : Src) (x w : Bool) (i : Fin 4) : W32 :=
  v3Word op (num 3 g) q (dstCode d) (srcCode a) (0#2 ++ bit x ++ bit w ++ num 2 i)
def encVsmrg (op : BitVec 6) (d a : Reg) (k : Fin 8) : W32 := v3Word op 0 false (num 6 d) (num 6 a) (0#3 ++ num 3 k)
def encVlgsz (op : BitVec 6) (g : Fin 8) (q : Bool) (d : Reg) (a : Src) (base : Bool) : W32 :=
  v3Word op (num 3 g) q (num 6 d) (srcCode a) (0#5 ++ bit base)

/-- The M layout of R35. -/
def mWord (op : BitVec 6) (pa pb : BitVec 3) (imm : BitVec 16) : W32 := slotWord unitM op (pa ++ pb ++ imm)
def encM0 (op : BitVec 6) : W32 := mWord op 0 0 0
def encMcall (op : BitVec 6) (n : Fin 64) : W32 := mWord op 0 0 (0#10 ++ num 6 n)
def encMloop (op : BitVec 6) (c : Fin 8) (off : W16) : W32 := mWord op (num 3 c) 0 off
def encMend (op : BitVec 6) (all : Bool) (c : Fin 8) : W32 := mWord op (num 3 c) 0 (0#15 ++ bit all)
def encMlda (op : BitVec 6) (a : Fin 8) (h : Bool) : W32 := mWord op (num 3 a) 0 (0#15 ++ bit h)
def encMmac (op : BitVec 6) (b c : Fin 8) (k : BitVec 12) (z : Bool) : W32 :=
  mWord op (num 3 b) (num 3 c) (0#3 ++ bit z ++ k)
def encMzero (op : BitVec 6) (c : Fin 8) : W32 := mWord op (num 3 c) 0 0
def encMdrain (op : BitVec 6) (d sc norm : Fin 8) (scl : Bool) : W32 :=
  mWord op (num 3 d) (num 3 sc) (0#12 ++ bit scl ++ num 3 norm)
def encMhada (op : BitVec 6) (c : Fin 8) (ord : Fin 4) (z : Bool) : W32 :=
  mWord op (num 3 c) 0 (0#13 ++ bit z ++ num 2 ord)
def encMkat (op : BitVec 6) (n : Fin 8) : W32 := mWord op 0 0 (0#13 ++ num 3 n)
def encMadd (op : BitVec 6) (a b : Fin 8) (r : Bool) (c : BitVec 15) : W32 := mWord op (num 3 a) (num 3 b) (bit r ++ c)
def encMprogSet (op : BitVec 6) (a b : Fin 8) (n : Fin 64) : W32 := mWord op (num 3 a) (num 3 b) (0#9 ++ bit true ++ num 6 n)
def encMprogClr (op : BitVec 6) (n : Fin 64) : W32 := mWord op 0 0 (0#9 ++ bit false ++ num 6 n)

/-- The C layout of R36. -/
def cWord (op : BitVec 6) (g : Fin 16) (e : BitVec 2) (a b : BitVec 6) (f : BitVec 4) : W32 :=
  slotWord unitC op (num 4 g ++ e ++ a ++ b ++ f)
def encC2 (op : BitVec 6) (g : Fin 16) (a b : Src) : W32 := cWord op g 0 (srcCode a) (srcCode b) 0
def encC1 (op : BitVec 6) (g : Fin 16) (a : Src) : W32 := cWord op g 0 (srcCode a) codeZero 0
def encCdb (op : BitVec 6) (g : Fin 16) (d : Reg) (b : Src) : W32 := cWord op g 0 (num 6 d) (srcCode b) 0
def encCpsrc (op : BitVec 6) (g : Fin 16) (e : Fin 2) (hi : Bool) (a b : Src) : W32 :=
  cWord op g (num 2 e) (srcCode a) (srcCode b) (0#3 ++ bit hi)
def encCpshp (op : BitVec 6) (g : Fin 16) (e : Fin 2) (hi : Bool) (b : Src) : W32 :=
  cWord op g (num 2 e) codeZero (srcCode b) (0#3 ++ bit hi)
def encCpfmt (op : BitVec 6) (ctl : Bool) (g : Fin 16) (e : Fin 2) (b : Src) : W32 :=
  cWord op g (num 2 e) codeZero (srcCode b) (0#3 ++ bit ctl)
def encCpgo (op : BitVec 6) (g : Fin 16) (e : Fin 2) (acq rel inp cw : Bool) (a b : Src) : W32 :=
  cWord op g (num 2 e) (srcCode a) (srcCode b) (bit cw ++ bit inp ++ bit rel ++ bit acq)
def encCpfill (op : BitVec 6) (g : Fin 16) (e : Fin 2) (on : Bool) (b : Src) : W32 := encCpshp op g e on b
def encCpstat (op : BitVec 6) (g : Fin 16) (e : Fin 2) (clr : Bool) (d : Reg) : W32 :=
  cWord op g (num 2 e) (num 6 d) codeZero (0#3 ++ bit clr)
def encCpcancel (op : BitVec 6) (g : Fin 16) (e : Fin 2) (b : Src) : W32 := cWord op g (num 2 e) codeZero (srcCode b) 0
def encCunpin (op : BitVec 6) (g : Fin 16) (all : Bool) (a : Src) : W32 := cWord op g 0 (srcCode a) codeZero (0#3 ++ bit all)
def encRmaConn (op : BitVec 6) (g : Fin 16) (a b : Src) : W32 := cWord op g 0 (srcCode a) (srcCode b) 0
def encRmaConnClose (op : BitVec 6) (g : Fin 16) (a : Src) : W32 := cWord op g 0 (srcCode a) codeZero 1
def encRmaput (op : BitVec 6) (g : Fin 16) (nt : Bool) (a b : Src) : W32 :=
  cWord op g (0#1 ++ bit nt) (srcCode a) (srcCode b) 0
def encRmaget (op : BitVec 6) (g : Fin 16) (e : Fin 2) (cw : Bool) (a b : Src) : W32 :=
  cWord op g (num 2 e) (srcCode a) (srcCode b) (0#3 ++ bit cw)
def encRmared (op : BitVec 6) (g : Fin 16) (nt : Bool) (o : Fin 16) (a b : Src) : W32 :=
  cWord op g (0#1 ++ bit nt) (srcCode a) (srcCode b) (num 4 o)
def encChop (op : BitVec 6) (g : Fin 16) (rel : Bool) (a : Src) : W32 :=
  cWord op g 0 (srcCode a) codeZero (0#2 ++ bit rel ++ 0#1)
/-- The event code of R333's table. -/
def evCode : ChEvent → BitVec 2 | .sr => 0 | .lr => 1 | .af => 2
def encChwait (op : BitVec 6) (g : Fin 16) (ev : ChEvent) (acq : Bool) (a b : Src) : W32 :=
  cWord op g (evCode ev) (srcCode a) (srcCode b) (0#3 ++ bit acq)
def encAtq (op : BitVec 6) (g : Fin 16) (arr rel acc : Bool) (a b : Src) : W32 :=
  cWord op g 0 (srcCode a) (srcCode b) (0#1 ++ bit acc ++ bit rel ++ bit arr)
def encKvapp (op : BitVec 6) (g : Fin 16) (cw rel : Bool) (a b : Src) : W32 :=
  cWord op g 0 (srcCode a) (srcCode b) (0#2 ++ bit rel ++ bit cw)
def encPmwr (op : BitVec 6) (unit : Bool) (g : Fin 16) (a : Src) : W32 :=
  cWord op g 0 (srcCode a) codeZero (0#3 ++ bit unit)
def encPmrebal (op : BitVec 6) (g : Fin 16) (cw : Bool) (a b : Src) : W32 :=
  cWord op g 0 (srcCode a) (srcCode b) (0#3 ++ bit cw)
def encTierin (op : BitVec 6) (g : Fin 16) (e : Fin 2) (cw : Bool) (a b : Src) : W32 :=
  cWord op g (num 2 e) (srcCode a) (srcCode b) (0#3 ++ bit cw)
def encTmmatch (op : BitVec 6) (g : Fin 16) (bk : Bool) (d : Reg) (b : Src) : W32 :=
  cWord op g 0 (num 6 d) (srcCode b) (0#3 ++ bit bk)
def encTmmerge (op : BitVec 6) (g : Fin 16) (bk fin : Bool) (a b : Src) : W32 :=
  cWord op g 0 (srcCode a) (srcCode b) (0#2 ++ bit fin ++ bit bk)
def encTmunmrg (op : BitVec 6) (g : Fin 16) (bk : Bool) (a b : Src) : W32 :=
  cWord op g 0 (srcCode a) (srcCode b) (0#3 ++ bit bk)

def encBr (op : BitVec 6) (p : Reg) (n : Bool) (off : W16) : W32 := slotWord unitB op (num 5 p ++ bit n ++ off)
def encJr (op : BitVec 6) (g : Fin 16) (d : Reg) (a b : Src) : W32 := encS3r unitB op g d a b
def encLoop (op : BitVec 6) (c : Fin 4) (off : W16) : W32 := slotWord unitB op (0#3 ++ num 2 c ++ 0#1 ++ off)
def encLset (op : BitVec 6) (g : Fin 16) (c : Fin 4) (a : Src) : W32 :=
  s3Word unitB op (num 4 g) (num 6 c) (srcCode a) codeZero
/-- The BP form (R37). -/
def bpWord (op : BitVec 6) (pd pa pb : Reg) (f : BitVec 7) : W32 :=
  slotWord unitB op (num 5 pd ++ num 5 pa ++ num 5 pb ++ f)
def encBp3 (op : BitVec 6) (pd pa pb : Reg) : W32 := bpWord op pd pa pb 0
def encBp2 (op : BitVec 6) (pd pa : Reg) : W32 := bpWord op pd pa 0 0
def encPset (op : BitVec 6) (pd : Reg) (v : Bool) : W32 := bpWord op pd 0 0 (0#6 ++ bit v)
def encFmtget (op : BitVec 6) (g : Fin 16) (d : Dst) : W32 := s3Word unitB op (num 4 g) (dstCode d) 0 0
/-- The scope code of R188. -/
def scopeCode : Scope → BitVec 3 | .core => 0 | .grove => 1 | .pkg => 2 | .torus => 3 | .pool => 4
def encPhase (op : BitVec 6) (sc : Scope) : W32 := s3Word unitB op 0 0 codeZero (0#3 ++ scopeCode sc)
def encFence (op : BitVec 6) (g : Fin 16) (l e : Bool) : W32 :=
  s3Word unitB op (num 4 g) 0 codeZero (0#4 ++ bit e ++ bit l)
def encWaita (op : BitVec 6) (g : Fin 16) (ge cb : Bool) (a b : Src) : W32 :=
  s3Word unitB op (num 4 g) (0#4 ++ bit ge ++ bit cb) (srcCode a) (srcCode b)
def encRfe (op : BitVec 6) (next : Bool) : W32 := s3Word unitB op 0 0 codeZero (0#5 ++ bit next)
def encFuse (op : BitVec 6) (g : Fin 16) (f : GangForm) : W32 :=
  s3Word unitB op (num 4 g) 0 codeZero (match f with | .w2 => 1 | .w4 => 2 | .t2 => 5)
def encSctrel (op : BitVec 6) (g : Fin 16) (w : Bool) (a : Src) : W32 :=
  s3Word unitB op (num 4 g) 0 (srcCode a) (0#5 ++ bit w)

/-- The word of an instruction, its stop bit clear, from the encoding tables (R26 to R37, R54); an event
has none. -/
def encode (i : Instr) : List W32 :=
  match i with
  | .add g d a b => [encS3 unitS 0x00 g d a b]
  | .sub g d a b => [encS3 unitS 0x01 g d a b]
  | .mul g d a b => [encS3 unitS 0x02 g d a b]
  | .mulh g d a b => [encS3 unitS 0x03 g d a b]
  | .mulhu g d a b => [encS3 unitS 0x04 g d a b]
  | .div g d a b => [encS3 unitS 0x05 g d a b]
  | .divu g d a b => [encS3 unitS 0x06 g d a b]
  | .rem g d a b => [encS3 unitS 0x07 g d a b]
  | .remu g d a b => [encS3 unitS 0x08 g d a b]
  | .and g d a b => [encS3 unitS 0x09 g d a b]
  | .or g d a b => [encS3 unitS 0x0A g d a b]
  | .xor g d a b => [encS3 unitS 0x0B g d a b]
  | .andn g d a b => [encS3 unitS 0x0C g d a b]
  | .shl g d a b => [encS3 unitS 0x0D g d a b]
  | .shr g d a b => [encS3 unitS 0x0E g d a b]
  | .sar g d a b => [encS3 unitS 0x0F g d a b]
  | .rotl g d a b => [encS3 unitS 0x10 g d a b]
  | .min g d a b => [encS3 unitS 0x11 g d a b]
  | .max g d a b => [encS3 unitS 0x12 g d a b]
  | .minu g d a b => [encS3 unitS 0x13 g d a b]
  | .maxu g d a b => [encS3 unitS 0x14 g d a b]
  | .addsat g d a b => [encS3 unitS 0x1B g d a b]
  | .clz g d a => [encS2 unitS 0x15 g d a]
  | .ctz g d a => [encS2 unitS 0x16 g d a]
  | .popc g d a => [encS2 unitS 0x17 g d a]
  | .bfx g d a b => [encS3 unitS 0x18 g d a b]
  | .bfi g d a b => [encS3r unitS 0x19 g d a b]
  | .sext g d a b => [encS3 unitS 0x1A g d a b]
  | .ceq g p a b => [encS3p unitS 0x1C g p a b]
  | .cne g p a b => [encS3p unitS 0x1D g p a b]
  | .clt g p a b => [encS3p unitS 0x1E g p a b]
  | .cltu g p a b => [encS3p unitS 0x1F g p a b]
  | .cle g p a b => [encS3p unitS 0x20 g p a b]
  | .cleu g p a b => [encS3p unitS 0x21 g p a b]
  | .sel p d a b => [encS3 unitS 0x22 p d a b]
  | .mov g d a => [encS2 unitS 0x23 g d a]
  | .ldb g d a b => [encS3 unitS 0x24 g d a b]
  | .ldh g d a b => [encS3 unitS 0x25 g d a b]
  | .ldw g d a b => [encS3 unitS 0x26 g d a b]
  | .ldd g d a b => [encS3 unitS 0x27 g d a b]
  | .stb g d a b => [encS3r unitS 0x28 g d a b]
  | .sth g d a b => [encS3r unitS 0x29 g d a b]
  | .stw g d a b => [encS3r unitS 0x2A g d a b]
  | .std g d a b => [encS3r unitS 0x2B g d a b]
  | .ldc g d a b => [encS3 unitS 0x2C g d a b]
  | .ldro g d a b => [encS3 unitS 0x2D g d a b]
  | .ldpm g d a b => [encS3 unitS 0x2E g d a b]
  | .stpm g d a b => [encS3r unitS 0x2F g d a b]
  | .atomAdd o sc d a b => [encAt 0x30 o sc d a b]
  | .atomMin o sc d a b => [encAt 0x31 o sc d a b]
  | .atomMax o sc d a b => [encAt 0x32 o sc d a b]
  | .atomAnd o sc d a b => [encAt 0x33 o sc d a b]
  | .atomOr o sc d a b => [encAt 0x34 o sc d a b]
  | .atomXor o sc d a b => [encAt 0x35 o sc d a b]
  | .atomXchg o sc d a b => [encAt 0x36 o sc d a b]
  | .atomCas o sc d a b => [encAtr 0x37 o sc d a b]
  | .sysRd g d a => [encS2 unitS 0x38 g d a]
  | .sysWr g a b => [encS3n unitS 0x39 g a b]
  | .timeRd g d m => [encTimeRd 0x3A g d m]
  | .roinv g => [encS0 unitS 0x3B g]
  | .tlbInv g a b => [encS3n unitS 0x3C g a b]
  | .mset g n a => [encMset 0x3D g n a]
  | .msetMxstat g a => [encMsetMx 0x3D g a]
  | .mget g d n => [encMget 0x3E g d n]
  | .mgetMxstat g d => [encMgetMx 0x3E g d]
  | .vadd g q d a b => [encV3 0x00 g q d a b]
  | .vsub g q d a b => [encV3 0x01 g q d a b]
  | .vmul g q d a b => [encV3 0x02 g q d a b]
  | .vfma g q d a b => [encV3r 0x03 g q d a b]
  | .vfms g q d a b => [encV3r 0x04 g q d a b]
  | .vfnma g q d a b => [encV3r 0x05 g q d a b]
  | .vmin g q d a b => [encV3 0x06 g q d a b]
  | .vmax g q d a b => [encV3 0x07 g q d a b]
  | .vabs g q d a => [encV2 0x08 g q d a]
  | .vneg g q d a => [encV2 0x09 g q d a]
  | .vdiv g q d a b => [encV3 0x0A g q d a b]
  | .vsqrt g q d a => [encV2 0x0B g q d a]
  | .vrcp g q d a => [encV2 0x0C g q d a]
  | .vrsqrt g q d a => [encV2 0x0D g q d a]
  | .vexp2 g q d a => [encV2 0x0E g q d a]
  | .vlog2 g q d a => [encV2 0x0F g q d a]
  | .vand g q d a b => [encV3 0x10 g q d a b]
  | .vor g q d a b => [encV3 0x11 g q d a b]
  | .vxor g q d a b => [encV3 0x12 g q d a b]
  | .vshl g q d a b => [encV3 0x13 g q d a b]
  | .vshr g q d a b => [encV3 0x14 g q d a b]
  | .vsar g q d a b => [encV3 0x15 g q d a b]
  | .vmulh g q d a b => [encV3 0x16 g q d a b]
  | .vdot4 g q d a b => [encV3r 0x17 g q d a b]
  | .vceq g q p a b => [encV3p 0x18 g q p a b]
  | .vcne g q p a b => [encV3p 0x19 g q p a b]
  | .vclt g q p a b => [encV3p 0x1A g q p a b]
  | .vcle g q p a b => [encV3p 0x1B g q p a b]
  | .vcun g q p a b => [encV3p 0x1C g q p a b]
  | .vsel p d a b => [encVsel 0x1D p d a b]
  | .vmov g q d a => [encV2 0x1E g q d a]
  | .vbcast g q d a => [encV2 0x1F g q d a]
  | .vext g q d a b => [encV3 0x20 g q d a b]
  | .vins g q d a b => [encV3r 0x21 g q d a b]
  | .vperm g q d a b => [encV3 0x22 g q d a b]
  | .vrot g q d a b => [encV3 0x23 g q d a b]
  | .vred g q d a op => [encVred 0x24 g q d a op]
  | .vscan g q d a op => [encVred 0x25 g q d a op]
  | .vsticky g q d => [encVsticky 0x26 g q d]
  | .vstclr g q mask => [encVstclr 0x27 g q mask]
  | .vcvt g q d a h t => [encVcvt 0x28 g q d a h t]
  | .vqnt q d a t => [encVqnt 0x29 q d a t]
  | .vdqn q d a t => [encVqnt 0x2A q d a t]
  | .vrnd g q d a m => [encVrnd 0x2B g q d a m]
  | .vscl g q d a b => [encV3 0x2C g q d a b]
  | .vsp2Enc g q d a h => [encVsp2 0x2D false g q d a h]
  | .vsp2Dec g q d a h => [encVsp2 0x2D true g q d a h]
  | .vpk g q d a b => [encV3 0x2E g q d a b]
  | .vupk g q d a x w i => [encVupk 0x2F g q d a x w i]
  | .vld g pm d a b => [encV3 0x30 g pm d a b]
  | .vst g pm d a b => [encV3r 0x31 g pm d a b]
  | .vlda g h d a b => [encV3 0x32 g h d a b]
  | .vsta g d a b => [encV3rz 0x33 g d a b]
  | .vldc g d a b => [encV3z 0x34 g d a b]
  | .vstc g d a b => [encV3rz 0x35 g d a b]
  | .vgat g q d a b => [encV3 0x36 g q d a b]
  | .vsct g d a b => [encV3rz 0x37 g d a b]
  | .vpf g k a b => [encV3n 0x38 g k a b]
  | .vsmrg d a k => [encVsmrg 0x39 d a k]
  | .vlgsz g q d a base => [encVlgsz 0x3A g q d a base]
  | .mcall n => [encMcall 0x00 n]
  | .mret => [encM0 0x01]
  | .mloop c off => [encMloop 0x02 c off]
  | .mend all c => [encMend 0x03 all c]
  | .mlda a h => [encMlda 0x04 a h]
  | .mmac b c k z => [encMmac 0x05 b c k z]
  | .mzero c => [encMzero 0x06 c]
  | .mdrain d sc norm scl => [encMdrain 0x07 d sc norm scl]
  | .mhada c ord z => [encMhada 0x08 c ord z]
  | .mkat n => [encMkat 0x09 n]
  | .madd a b r c => [encMadd 0x0A a b r c]
  | .mprogSet a b n => [encMprogSet 0x0B a b n]
  | .mprogClr n => [encMprogClr 0x0B n]
  | .msync => [encM0 0x0C]
  | .cpSrc g e hi a b => [encCpsrc 0x00 g e hi a b]
  | .cpDst g e hi a b => [encCpsrc 0x01 g e hi a b]
  | .cpShp g e hi b => [encCpshp 0x02 g e hi b]
  | .cpFmt g e b => [encCpfmt 0x03 false g e b]
  | .cpFmtCtl g e b => [encCpfmt 0x03 true g e b]
  | .cpGo g e acq rel inp cw a b => [encCpgo 0x04 g e acq rel inp cw a b]
  | .cpFill g e on b => [encCpfill 0x05 g e on b]
  | .cpStat g e clr d => [encCpstat 0x06 g e clr d]
  | .cpCancel g e b => [encCpcancel 0x07 g e b]
  | .cpTdef g a b => [encC2 0x08 g a b]
  | .resAlloc g d b => [encCdb 0x10 g d b]
  | .resLoad g a b => [encC2 0x11 g a b]
  | .resPin g a => [encC1 0x12 g a]
  | .resUnpin g all a => [encCunpin 0x13 g all a]
  | .resRevoke g a => [encC1 0x14 g a]
  | .resReload g a => [encC1 0x15 g a]
  | .resQ g d b => [encCdb 0x16 g d b]
  | .rmaConn g a b => [encRmaConn 0x18 g a b]
  | .rmaConnClose g a => [encRmaConnClose 0x18 g a]
  | .rmaPut g nt a b => [encRmaput 0x19 g nt a b]
  | .rmaGet g e cw a b => [encRmaget 0x1A g e cw a b]
  | .rmaRed g nt op a b => [encRmared 0x1B g nt op a b]
  | .rmaStat g d b => [encCdb 0x1C g d b]
  | .chSend g rel a => [encChop 0x20 g rel a]
  | .chRecv g a => [encC1 0x21 g a]
  | .chRed g rel a => [encChop 0x22 g rel a]
  | .chBcast g rel a => [encChop 0x23 g rel a]
  | .chAgat g rel a => [encChop 0x24 g rel a]
  | .chWait g ev acq a b => [encChwait 0x25 g ev acq a b]
  | .chQ g d b => [encCdb 0x26 g d b]
  | .atQ g arr rel acc a b => [encAtq 0x28 g arr rel acc a b]
  | .kvApp g cw rel a b => [encKvapp 0x29 g cw rel a b]
  | .pmRd g a b => [encC2 0x2A g a b]
  | .pmWrSeq g a => [encPmwr 0x2B false g a]
  | .pmWrUnit g a => [encPmwr 0x2B true g a]
  | .pmRebal g cw a b => [encPmrebal 0x2C g cw a b]
  | .pxHash g d b => [encCdb 0x2D g d b]
  | .pxLook g d b => [encCdb 0x2E g d b]
  | .pxPin g d b => [encCdb 0x2F g d b]
  | .pxUnpin g a b => [encC2 0x30 g a b]
  | .pxIns g d b => [encCdb 0x31 g d b]
  | .tierIn g e cw a b => [encTierin 0x32 g e cw a b]
  | .tmMatch g bk d b => [encTmmatch 0x38 g bk d b]
  | .tmMerge g bk fin a b => [encTmmerge 0x39 g bk fin a b]
  | .tmUnmrg g bk a b => [encTmunmrg 0x3A g bk a b]
  | .tmFree g a => [encC1 0x3B g a]
  | .tmSpill g a b => [encC2 0x3C g a b]
  | .tmFill g d b => [encCdb 0x3D g d b]
  | .br p n off => [encBr 0x00 p n off]
  | .jal p n off => [encBr 0x01 p n off]
  | .jr g d a b => [encJr 0x02 g d a b]
  | .loop c off => [encLoop 0x03 c off]
  | .lset g c a => [encLset 0x04 g c a]
  | .pand pd pa pb => [encBp3 0x05 pd pa pb]
  | .por pd pa pb => [encBp3 0x06 pd pa pb]
  | .pxor pd pa pb => [encBp3 0x07 pd pa pb]
  | .pandn pd pa pb => [encBp3 0x08 pd pa pb]
  | .pnot pd pa => [encBp2 0x09 pd pa]
  | .pany pd pa pb => [encBp3 0x0A pd pa pb]
  | .pall pd pa pb => [encBp3 0x0B pd pa pb]
  | .pset pd v => [encPset 0x0C pd v]
  | .fmtSet g a b => [encS3n unitB 0x10 g a b]
  | .fmtGet g d => [encFmtget 0x11 g d]
  | .phase sc => [encPhase 0x14 sc]
  | .phin g d => [encSd unitB 0x15 g d]
  | .fence g l e => [encFence 0x16 g l e]
  | .barInit g a b => [encS3n unitB 0x17 g a b]
  | .barArr g a => [encS2n unitB 0x18 g a]
  | .barWait g a b => [encS3n unitB 0x19 g a b]
  | .waita g ge cb a b => [encWaita 0x1A g ge cb a b]
  | .tspawn g a b => [encS3n unitB 0x20 g a b]
  | .texit g => [encS0 unitB 0x21 g]
  | .trap g a => [encS2n unitB 0x22 g a]
  | .rfe next => [encRfe 0x23 next]
  | .fuse g f => [encFuse 0x24 g f]
  | .decpl g => [encS0 unitB 0x25 g]
  | .rejoin g => [encS0 unitB 0x26 g]
  | .prio g a => [encS2n unitB 0x27 g a]
  | .sctPin g a b => [encS3n unitB 0x28 g a b]
  | .sctRel g w a => [encSctrel 0x29 g w a]
  | .halt g => [encS0 unitB 0x2A g]
  | .commitComplete => []
  | .loadDataArrival _ _ => []
  | .groupAbortNotice _ => []
  | .phaseBudget => []
  | .lateTrapDelivery => []
  | .mmpFaultService _ => []
  | .pagerCompletion _ => []
  | .freezeLimit => []
  | .pageMigrationStart _ => []
  | .pageMigrationEnd _ => []
  | .clearingComplete => []
  | .poolLinkLost _ => []
  | .poolPortRetrain _ _ => []
  | .hostPortDown => []
  | .hostCxlMemWrite _ _ => []
  | .copyCommandComplete _ => []
  | .copyCommandFault _ _ => []
  | .matrixOpPerform => []
  | .mkatRun => []
  | .residencyLoadComplete _ => []
  | .residencyLoadFail _ _ => []
  | .arrayError _ => []
  | .compareModeRunEnd _ => []
  | .flitCrcFail _ => []
  | .linkTrainingResult _ _ => []
  | .linkTrainingTimeout _ => []
  | .packetRoute _ => []
  | .multipathFallback _ => []
  | .fifowArrival _ _ => []
  | .flow _ _ => []
  | .orderedPacketReceipt _ => []
  | .orderedAckReceipt _ _ => []
  | .rtoExpiry _ => []
  | .fabtmoExpiry _ => []
  | .remoteReplyData _ _ => []
  | .nakReceipt _ _ => []
  | .openReceipt _ => []
  | .answerReceipt _ _ _ => []
  | .connectionTimeout _ _ => []
  | .autoOpen _ _ => []
  | .brokenClose _ _ => []
  | .putPacketLanding _ _ _ => []
  | .messageAckReceipt _ _ _ _ => []
  | .redPacketApply _ _ => []
  | .getreqReceipt _ => []
  | .getDataLanding _ _ _ _ _ => []
  | .collPacketReceipt _ => []
  | .sourceReadComplete _ => []
  | .barrierArrival _ _ => []
  | .groupTableFill _ _ => []
  | .queryAtHolder _ => []
  | .partialMerge _ _ _ => []
  | .resultRecordWrite _ => []
  | .staleReport _ => []
  | .attentionTimeout _ => []
  | .appendAtHolder _ => []
  | .appendComplete _ _ => []
  | .pmtWriteAtMember _ _ => []
  | .rebalanceQuery _ => []
  | .rebalanceApply _ => []
  | .rebalanceComplete _ _ => []
  | .unitCopyComplete _ _ _ => []
  | .tierInComplete _ => []
  | .tierInFail _ _ => []
  | .tmCommandPerform => []
  | .launchWordWrite _ => []
  | .dependenceWordWrite _ => []
  | .startTimeTest => []
  | .priorityAgeing => []
  | .taskPlacement => []
  | .saveComplete => []
  | .emergencyAreaDrain => []
  | .starveCountExpiry => []
  | .gangForm => []
  | .gangRejoin => []
  | .streamIdleExpiry _ => []
  | .streamEvictionComplete _ => []
  | .streamLoadComplete _ => []
  | .devtimeWrite _ => []
  | .ppsEdge => []
  | .devtimeSlewEnd => []
  | .ecclogClear => []
  | .linklogClear => []
  | .haltmaskClear _ _ => []
  | .culletClear _ => []
  | .routecfgVerWrite _ => []
  | .routecfgDropClear => []
  | .rtdatWrite _ => []
  | .sctcfgWrite _ => []
  | .lwaddrWrite _ _ => []
  | .hbmWordTransfer _ => []
  | .laneSwapComplete _ _ => []
  | .powerOnBoot _ => []
  | .bootRecordClear _ => []
  | .voltageAlarm => []
  | .clockAlarm => []
  | .temperatureAlarm => []
  | .lidMeshAlarm => []
  | .mailboxNonceWrite _ => []
  | .attestationReportReady => []
  | .clockStepDown => []
  | .clockStepUp => []
  | .poolBackInvalidation _ => []
  | .mmpServiceRequest _ => []
  | .hostPortRetrain _ => []
  | .linkPartnerLost _ => []
  | .idleFlitReceipt _ _ _ _ => []
  | .gixImageLoad _ _ _ => []

/-- The same word with its stop bit set: the last slot of a group (R38). -/
def withStop (w : W32) : W32 := w ||| 0x80000000#32

/-- The pad slot, and the pad that ends a group or opens a section (R27, R44). -/
def padWord : W32 := 0x70000000#32
/-- The section guard of R44. -/
def guardWord : W32 := 0xF0000000#32

/-- The literal slot (R27, R31). -/
def litWord (p : BitVec 28) : W32 := 0#1 ++ 5#3 ++ p

end Sys2Proof
end

