-- ==== Sys2Proof/Machine/Vector.lean ====
section
/-! DEFINITION. The vector instructions (R114 to R143). -/

namespace Sys2Proof.Machine

/-- The exposed latency of an instruction by the class of its format (R119). -/
def latFI (f : Fmt) (lf li : Nat) : Nat := if classF.contains f then lf else li

/-- A V slot of two vector operands, element by element (R114, R118). -/
def vec2 (fmts : List Fmt) (rounds : Bool) (lat : Fmt → Nat) (op : W64 → Fmt → Nat → Nat → W32 → Nat × Flags6)
    (g : Fin 8) (q : Bool) (d : Dst) (a b : Src) (k : LaneMask) (s : State) : Res State := do
  let f ← needFmt fmts s
  let (x, t, s) ← srcV f a s
  let (y, u, s) ← srcV f b s
  let w := widthOf f
  mapElems f rounds k d q (t || u || predTaint s.c (guardRegV g)) (lat f)
    (fun j st => op s.c.a.fmt f (elem x w j) (elem y w j) st) s

/-- A V slot of one vector operand, element by element. -/
def vec1 (fmts : List Fmt) (rounds : Bool) (lat : Fmt → Nat) (op : W64 → Fmt → Nat → W32 → Nat × Flags6)
    (g : Fin 8) (q : Bool) (d : Dst) (a : Src) (k : LaneMask) (s : State) : Res State := do
  let f ← needFmt fmts s
  let (x, t, s) ← srcV f a s
  let w := widthOf f
  mapElems f rounds k d q (t || predTaint s.c (guardRegV g)) (lat f)
    (fun j st => op s.c.a.fmt f (elem x w j) st) s

/-- One binary operation on an element of any class: floating-point, or integer by exact values (R132). -/
def binElem (fop : RMode → Val → Val → FRes) (iop : Int → Int → Int) (fmt : W64) (f : Fmt) (a b : Nat) (x : W32) :
    Nat × Flags6 :=
  match kindOf f with
  | .fp k => fpOp2 fmt k fop a b x
  | k => intDeliver k (satOf fmt) (iop (intValue k a) (intValue k b))

/-- vmin and vmax on an element (R132). -/
def minMaxElem (big : Bool) (fmt : W64) (f : Fmt) (a b : Nat) : Nat × Flags6 :=
  match kindOf f with
  | .fp k => minMax k (dnOf fmt) big a b
  | k =>
    let less := if big then intValue k b < intValue k a else intValue k a < intValue k b
    (if less then a else b, 0)

/-- vfma and its relatives: a × b + d with signs flipped as the entry gives (R133). -/
def fused (flipA flipD : Bool) (g : Fin 8) (q : Bool) (d : Reg) (a b : Src) (k : LaneMask) (s : State) : Res State := do
  let f ← needFmt classF s
  let (x, t, s) ← srcV f a s
  let (y, u, s) ← srcV f b s
  let (z, v) ← srcVReg d s
  let w := widthOf f
  let fmt := s.c.a.fmt
  mapElems f true k (.reg d) q (t || u || v || predTaint s.c (guardRegV g)) 6
    (fun j st => match kindOf f with
      | .fp kf =>
        let o (e : Nat) := kf.operand (dnOf fmt) e
        let a := o (elem x w j)
        let c := o (elem z w j)
        deliver kf (roundingOf fmt st)
          (ffma (rmOf fmt) (if flipA then a.flip else a) (o (elem y w j)) (if flipD then c.flip else c))
      | _ => (0, 0)) s

/-- vabs and vneg on an element (R134). -/
def absNeg (neg : Bool) (fmt : W64) (f : Fmt) (a : Nat) : Nat × Flags6 :=
  match kindOf f with
  | .fp k =>
    let sb := k.signBit true
    (if neg then (if a < sb then a + sb else a - sb) else a % sb, 0)
  | .uint w => if neg then intDeliver (.uint w) (satOf fmt) (-(intValue (.uint w) a)) else (a, 0)
  | .int w =>
    let x := intValue (.int w) a
    intDeliver (.int w) (satOf fmt) (if neg then -x else x.natAbs)

/-- A transcendental on an element (R135). -/
def transElem (fn : RMode → Val → FRes) (fmt : W64) (f : Fmt) (a : Nat) (x : W32) : Nat × Flags6 :=
  match kindOf f with
  | .fp k => fpOp1 fmt k (fn (rmOf fmt)) a x
  | _ => (0, 0)

/-- The bits of enabled lanes taken from a whole-register result; other lanes keep what D holds (R34). -/
def mapLanes (k : LaneMask) (d : Dst) (x : VWord) (t : Bool) (l : Nat) (s : State) : Res State := do
  let old ← oldV d s
  writeV d (mix (laneBits k) old x) (t || keptTaint .fp32 k d s) l s

/-- A bitwise operation on the enabled lanes (R136). -/
def vecBits (op : VWord → VWord → VWord) (g : Fin 8) (d : Dst) (a b : Src) (k : LaneMask) (s : State) : Res State := do
  let f := vtOf s.c.a.fmt
  let (x, t, s) ← srcV f a s
  let (y, u, s) ← srcV f b s
  mapLanes k d (op x y) (t || u || predTaint s.c (guardRegV g)) 2 s

/-- A shift amount: the low log₂ w bits (R136). -/
def vshamt (w b : Nat) : Nat := b % w

/-- The shifts and vmulh on an element (R136). -/
def vshlElem (_ : W64) (f : Fmt) (a b : Nat) (_ : W32) : Nat × Flags6 :=
  let w := widthOf f
  (a * 2 ^ vshamt w b % 2 ^ w, 0)
def vshrElem (_ : W64) (f : Fmt) (a b : Nat) (_ : W32) : Nat × Flags6 := (a / 2 ^ vshamt (widthOf f) b, 0)
def vsarElem (_ : W64) (f : Fmt) (a b : Nat) (_ : W32) : Nat × Flags6 :=
  let w := widthOf f
  (wrapN w (sextN w a / (2 ^ vshamt w b : Nat)), 0)
def vmulhElem (_ : W64) (f : Fmt) (a b : Nat) (_ : W32) : Nat × Flags6 :=
  let w := widthOf f
  let k := kindOf f
  (wrapN w (intValue k a * intValue k b / (2 ^ w : Nat)), 0)

/-- A lane's dot product with its accumulator (R137). -/
def dot4Lane (fmt : W64) (f : Fmt) (a b d : W32) : Nat × Flags6 :=
  let w := widthOf f
  let k := kindOf f
  let acc : FKind := match k with | .uint _ => .uint 32 | _ => .int 32
  let sum := ((List.range (32 / w)).map (fun i =>
    intValue k (a.toNat >>> (w * i) % 2 ^ w) * intValue k (b.toNat >>> (w * i) % 2 ^ w))).sum
  intDeliver acc (satOf fmt) (intValue acc d.toNat + sum)

/-! ## Compares -/

/-- The conditions of R138. -/
inductive VCond where
  | eq | ne | lt | le | un
deriving DecidableEq, Repr

/-- The condition on one pair of elements, and whether it raises invalid (R138). -/
def condElem (c : VCond) (fmt : W64) (f : Fmt) (a b : Nat) : Bool × Flags6 :=
  match kindOf f with
  | .fp k =>
    let x := k.operand (dnOf fmt) a
    let y := k.operand (dnOf fmt) b
    let un := x.isNan || y.isNan
    let sig : Bool := x = .nan true || y = .nan true
    match c with
    | .eq => (!un && x.eqv y, if sig then fNV else 0)
    | .ne => (un || !x.eqv y, if sig then fNV else 0)
    | .lt => (!un && x.lt y, if un then fNV else 0)
    | .le => (!un && (x.lt y || x.eqv y), if un then fNV else 0)
    | .un => (un, if sig then fNV else 0)
  | k =>
    let x := intValue k a
    let y := intValue k b
    (match c with
      | .eq => x = y
      | .ne => x ≠ y
      | .lt => x < y
      | .le => x ≤ y
      | .un => false, 0)

/-- The elements that lane i holds: one, two or four, or the FP64 element of its pair (R138). -/
def elemsOfLane (f : Fmt) (i : Nat) : List Nat :=
  match widthOf f with
  | 64 => [i / 2]
  | 16 => [2 * i, 2 * i + 1]
  | 8 => [4 * i, 4 * i + 1, 4 * i + 2, 4 * i + 3]
  | _ => [i]

/-- Lane i is enabled for a compare: an FP64 element is controlled by the bit of its even lane, and both lanes
of its pair get its result (R70, R114, R138, log 78). -/
def laneEnabled (f : Fmt) (k : LaneMask) (i : Nat) : Bool := k.getLsbD (if widthOf f = 64 then 2 * (i / 2) else i)

/-- A vector compare (R138). -/
def vcompare (c : VCond) (fmts : List Fmt) (g : Fin 8) (q : Bool) (p : Reg) (a b : Src) (k : LaneMask) (s : State) :
    Res State := do
  let f ← needFmt fmts s
  let (x, t, s) ← srcV f a s
  let (y, u, s) ← srcV f b s
  let w := widthOf f
  let fmt := s.c.a.fmt
  let cond (j : Nat) := condElem c fmt f (elem x w j) (elem y w j)
  let bit (i : Nat) : Bool := (elemsOfLane f i).all (fun j => (cond j).1)
  let old := predLanes s.c p
  let lanes := maskOf (fun i => if laneEnabled f k i then bit i else old.getLsbD i)
  let fl : Sticky := (List.range (countOf f)).foldl
    (fun fl j => if k.getLsbD (laneOf f j) then orFlags fl (laneOf f j) (cond j).2 else fl) 0
  let kept := predTaint s.c p && (List.range 64).any (fun i => !laneEnabled f k i)
  let s := writeP p lanes (t || u || predTaint s.c (guardRegV g) || kept) 2 s
  .ok (if q || fl = 0 then s else sched (.sticky fl) 2 s)

/-! ## Reductions and scans -/

/-- Combine on two elements (R142): addition with rounding, or maximumNumber or minimumNumber. An integer
sum is formed exactly elsewhere. -/
def combine (op : RedOp) (fmt : W64) (f : Fmt) (a b : Nat) (x : W32) : Nat × Flags6 :=
  match op with
  | .add => binElem fadd (fun a b => a + b) fmt f a b x
  | .max => minMaxElem true fmt f a b
  | .min => minMaxElem false fmt f a b

/-- The identity of an operation in a format (R129). -/
def identity (op : RedOp) (f : Fmt) : Nat :=
  match kindOf f, op with
  | .fp k, .add => k.signBit true
  | .fp k, .max => k.signBit true + k.infBits
  | .fp k, .min => k.infBits
  | _, .add => 0
  | k, .max => wrapN (widthOf f) (intRange k).1
  | k, .min => wrapN (widthOf f) (intRange k).2

/-- Combine each pair in turn: the results, the flags of each, and the lane states, stepped in increasing
index where the sum rounds under STO (R129, R130). `at_` numbers the first pair's element. -/
def combineAll (op : RedOp) (fmt : W64) (f : Fmt) : List (Nat × Nat) → Nat → VWord → List (Nat × Flags6) × VWord
  | [], _, xs => ([], xs)
  | (a, b) :: r, at_, xs =>
    let sto : Bool := op = .add && fpFormat f && isSto fmt
    let i := laneOf f at_
    let x := if sto then stepLane (lane xs i) else 0
    let xs := if sto then setLane xs i x else xs
    let y := combine op fmt f a b x
    let (ys, xs) := combineAll op fmt f r (at_ + 1) xs
    (y :: ys, xs)

/-- The tree of R129: one step for each listed half. -/
def redTree (op : RedOp) (fmt : W64) (f : Fmt) : List Nat → List Nat → Flags6 → VWord → Nat × Flags6 × VWord
  | [], e, fl, xs => (e.headD 0, fl, xs)
  | h :: r, e, fl, xs =>
    let (ys, xs) := combineAll op fmt f ((e.take h).zip (e.drop h)) 0 xs
    redTree op fmt f r (ys.map Prod.fst) (ys.foldl (fun fl y => fl ||| y.2) fl) xs

/-- N/2, N/4, …, 1. -/
def halves : Nat → Nat → List Nat
  | 0, _ => []
  | k + 1, n => if n ≤ 1 then [] else n / 2 :: halves k (n / 2)

/-- The steps of R130: one for each listed distance; flags are kept by element. -/
def scanSteps (op : RedOp) (fmt : W64) (f : Fmt) : List Nat → List Nat → List Flags6 → VWord →
    List Nat × List Flags6 × VWord
  | [], e, fl, xs => (e, fl, xs)
  | d :: r, e, fl, xs =>
    let (ys, xs) := combineAll op fmt f (e.zip (e.drop d)) d xs
    scanSteps op fmt f r (e.take d ++ ys.map Prod.fst)
      (fl.take d ++ ((fl.drop d).zip ys).map (fun p => p.1 ||| p.2.2)) xs

/-- The elements of A with the identity in disabled ones (R129). -/
def maskedElems (op : RedOp) (f : Fmt) (k : LaneMask) (x : VWord) : List Nat :=
  (List.range (countOf f)).map (fun j => if k.getLsbD (laneOf f j) then elem x (widthOf f) j else identity op f)

/-- Flags recorded in every enabled lane (R129). -/
def flagsAll (k : LaneMask) (fl : Flags6) : Sticky :=
  (List.range 64).foldl (fun s i => if k.getLsbD i then orFlags s i fl else s) 0

/-- vred (R129, R142). -/
def reduce (op : RedOp) (fmt : W64) (f : Fmt) (k : LaneMask) (x xs : VWord) : Nat × Flags6 × VWord :=
  let e := maskedElems op f k x
  if op = .add && !fpFormat f then
    let kd := kindOf f
    let (v, fl) := intDeliver kd (satOf fmt) (e.map (intValue kd)).sum
    (v, fl, xs)
  else redTree op fmt f (halves 8 (countOf f)) e 0 xs

/-- The exact prefix sums of integer elements (R130). -/
def prefixSums (kd : FKind) : Int → List Nat → List Int
  | _, [] => []
  | acc, x :: r => (acc + intValue kd x) :: prefixSums kd (acc + intValue kd x) r

/-- An element as an operand is read: a NaN becomes the canonical one, and DN makes a subnormal zero (R69, R79). -/
def asRead (fmt : W64) (f : Fmt) (e : Nat) : Nat :=
  match kindOf f with
  | .fp k =>
    match k.operand (dnOf fmt) e with
    | .nan _ => k.nanBits
    | .inf _ => e
    | .num x => if x.isZero then k.signBit x.neg else e
  | _ => e

/-- vscan: the prefix elements with their flags (R130, R142). The first is delivered as it is read, for no Combine
delivers it. -/
def scanElems (op : RedOp) (fmt : W64) (f : Fmt) (k : LaneMask) (x xs : VWord) : List (Nat × Flags6) × VWord :=
  let e := maskedElems op f k x
  if op = .add && !fpFormat f then
    let kd := kindOf f
    ((prefixSums kd 0 e).map (intDeliver kd (satOf fmt)), xs)
  else
    let (e, fl, xs) := scanSteps op fmt f (halves 8 (countOf f)).reverse e (e.map (fun _ => 0)) xs
    ((e.take 1).map (asRead fmt f) ++ e.drop 1 |>.zip fl, xs)

/-! ## The meanings -/

/-- `vadd` (R132). -/
def execVadd (g : Fin 8) (q : Bool) (d : Dst) (a b : Src) (s : State) : Host.Outcome State Fault Refusal :=
  guardedV g s (vec2 (classF ++ classI) true (fun f => latFI f 4 2) (binElem fadd (fun a b => a + b)) g q d a b)

/-- `vsub` (R132). -/
def execVsub (g : Fin 8) (q : Bool) (d : Dst) (a b : Src) (s : State) : Host.Outcome State Fault Refusal :=
  guardedV g s (vec2 (classF ++ classI) true (fun f => latFI f 4 2) (binElem (fun m x y => fadd m x y.flip) (fun a b => a - b)) g q d a b)

/-- `vmul` (R132). -/
def execVmul (g : Fin 8) (q : Bool) (d : Dst) (a b : Src) (s : State) : Host.Outcome State Fault Refusal :=
  guardedV g s (vec2 (classF ++ classI) true (fun f => latFI f 5 3) (binElem (fun _ x y => fmul x y) (fun a b => a * b)) g q d a b)

/-- `vfma` (R133). -/
def execVfma (g : Fin 8) (q : Bool) (d : Reg) (a b : Src) (s : State) : Host.Outcome State Fault Refusal :=
  guardedV g s (fused false false g q d a b)

/-- `vfms` (R133). -/
def execVfms (g : Fin 8) (q : Bool) (d : Reg) (a b : Src) (s : State) : Host.Outcome State Fault Refusal :=
  guardedV g s (fused false true g q d a b)

/-- `vfnma` (R133). -/
def execVfnma (g : Fin 8) (q : Bool) (d : Reg) (a b : Src) (s : State) : Host.Outcome State Fault Refusal :=
  guardedV g s (fused true false g q d a b)

/-- `vmin` (R132). -/
def execVmin (g : Fin 8) (q : Bool) (d : Dst) (a b : Src) (s : State) : Host.Outcome State Fault Refusal :=
  guardedV g s (vec2 (classF ++ class8 ++ classI) false (fun _ => 2) (fun fmt f a b _ => minMaxElem false fmt f a b) g q d a b)

/-- `vmax` (R132). -/
def execVmax (g : Fin 8) (q : Bool) (d : Dst) (a b : Src) (s : State) : Host.Outcome State Fault Refusal :=
  guardedV g s (vec2 (classF ++ class8 ++ classI) false (fun _ => 2) (fun fmt f a b _ => minMaxElem true fmt f a b) g q d a b)

/-- `vabs` (R134). -/
def execVabs (g : Fin 8) (q : Bool) (d : Dst) (a : Src) (s : State) : Host.Outcome State Fault Refusal :=
  guardedV g s (vec1 (classF ++ class8 ++ classI) false (fun _ => 2) (fun fmt f a _ => absNeg false fmt f a) g q d a)

/-- `vneg` (R134). -/
def execVneg (g : Fin 8) (q : Bool) (d : Dst) (a : Src) (s : State) : Host.Outcome State Fault Refusal :=
  guardedV g s (vec1 (classF ++ class8 ++ classI) false (fun _ => 2) (fun fmt f a _ => absNeg true fmt f a) g q d a)

/-- `vdiv` (R132). -/
def execVdiv (g : Fin 8) (q : Bool) (d : Dst) (a b : Src) (s : State) : Host.Outcome State Fault Refusal :=
  guardedV g s (vec2 classF true (fun _ => 14) (binElem (fun _ x y => fdiv x y) (fun a _ => a)) g q d a b)

/-- `vsqrt` (R134). -/
def execVsqrt (g : Fin 8) (q : Bool) (d : Dst) (a : Src) (s : State) : Host.Outcome State Fault Refusal :=
  guardedV g s (vec1 classF true (fun _ => 14) (transElem (fun _ => fsqrt)) g q d a)

/-- `vrcp` (R135). -/
def execVrcp (g : Fin 8) (q : Bool) (d : Dst) (a : Src) (s : State) : Host.Outcome State Fault Refusal :=
  guardedV g s (vec1 classE true (fun _ => 8) (transElem (fun _ => rcpVal)) g q d a)

/-- `vrsqrt` (R135). -/
def execVrsqrt (g : Fin 8) (q : Bool) (d : Dst) (a : Src) (s : State) : Host.Outcome State Fault Refusal :=
  guardedV g s (vec1 classE true (fun _ => 8) (transElem (fun _ => rsqrtVal)) g q d a)

/-- `vexp2` (R135). -/
def execVexp2 (g : Fin 8) (q : Bool) (d : Dst) (a : Src) (s : State) : Host.Outcome State Fault Refusal :=
  guardedV g s (vec1 classE true (fun _ => 8) (transElem (fun _ => exp2Val)) g q d a)

/-- `vlog2` (R135). -/
def execVlog2 (g : Fin 8) (q : Bool) (d : Dst) (a : Src) (s : State) : Host.Outcome State Fault Refusal :=
  guardedV g s (vec1 classE true (fun _ => 8) (transElem (fun m x => log2Val x (m = .rdn))) g q d a)

/-- `vand` (R136). -/
def execVand (g : Fin 8) (_q : Bool) (d : Dst) (a b : Src) (s : State) : Host.Outcome State Fault Refusal :=
  guardedV g s (vecBits (fun a b => a &&& b) g d a b)

/-- `vor` (R136). -/
def execVor (g : Fin 8) (_q : Bool) (d : Dst) (a b : Src) (s : State) : Host.Outcome State Fault Refusal :=
  guardedV g s (vecBits (fun a b => a ||| b) g d a b)

/-- `vxor` (R136). -/
def execVxor (g : Fin 8) (_q : Bool) (d : Dst) (a b : Src) (s : State) : Host.Outcome State Fault Refusal :=
  guardedV g s (vecBits (fun a b => a ^^^ b) g d a b)

/-- `vshl` (R136). -/
def execVshl (g : Fin 8) (q : Bool) (d : Dst) (a b : Src) (s : State) : Host.Outcome State Fault Refusal :=
  guardedV g s (vec2 classI false (fun _ => 2) vshlElem g q d a b)

/-- `vshr` (R136). -/
def execVshr (g : Fin 8) (q : Bool) (d : Dst) (a b : Src) (s : State) : Host.Outcome State Fault Refusal :=
  guardedV g s (vec2 classI false (fun _ => 2) vshrElem g q d a b)

/-- `vsar` (R136). -/
def execVsar (g : Fin 8) (q : Bool) (d : Dst) (a b : Src) (s : State) : Host.Outcome State Fault Refusal :=
  guardedV g s (vec2 classI false (fun _ => 2) vsarElem g q d a b)

/-- `vmulh` (R136). -/
def execVmulh (g : Fin 8) (q : Bool) (d : Dst) (a b : Src) (s : State) : Host.Outcome State Fault Refusal :=
  guardedV g s (vec2 classI false (fun _ => 3) vmulhElem g q d a b)

/-- `vdot4` (R137). -/
def execVdot4 (g : Fin 8) (q : Bool) (d : Reg) (a b : Src) (s : State) : Host.Outcome State Fault Refusal :=
  guardedV g s (fun k s => do
    let f ← needFmt [.int8, .uint8, .int16] s
    let (x, t, s) ← srcV f a s
    let (y, u, s) ← srcV f b s
    let (z, v) ← srcVReg d s
    mapElems .int32 false k (.reg d) q (t || u || v || predTaint s.c (guardRegV g)) 4
      (fun i _ => dot4Lane s.c.a.fmt f (lane x i) (lane y i) (lane z i)) s)

/-- `vceq` (R138). -/
def execVceq (g : Fin 8) (q : Bool) (p : Reg) (a b : Src) (s : State) : Host.Outcome State Fault Refusal :=
  guardedV g s (vcompare .eq (classF ++ class8 ++ classI) g q p a b)

/-- `vcne` (R138). -/
def execVcne (g : Fin 8) (q : Bool) (p : Reg) (a b : Src) (s : State) : Host.Outcome State Fault Refusal :=
  guardedV g s (vcompare .ne (classF ++ class8 ++ classI) g q p a b)

/-- `vclt` (R138). -/
def execVclt (g : Fin 8) (q : Bool) (p : Reg) (a b : Src) (s : State) : Host.Outcome State Fault Refusal :=
  guardedV g s (vcompare .lt (classF ++ class8 ++ classI) g q p a b)

/-- `vcle` (R138). -/
def execVcle (g : Fin 8) (q : Bool) (p : Reg) (a b : Src) (s : State) : Host.Outcome State Fault Refusal :=
  guardedV g s (vcompare .le (classF ++ class8 ++ classI) g q p a b)

/-- `vcun` (R138). -/
def execVcun (g : Fin 8) (q : Bool) (p : Reg) (a b : Src) (s : State) : Host.Outcome State Fault Refusal :=
  guardedV g s (vcompare .un (classF ++ class8) g q p a b)

/-- `vsel`: the guard field selects, in every lane (R139). -/
def execVsel (p : Fin 8) (d : Dst) (a b : Src) (s : State) : Host.Outcome State Fault Refusal :=
  always s (fun s => do
    let f := vtOf s.c.a.fmt
    let (x, t, s) ← srcV f a s
    let (y, u, s) ← srcV f b s
    writeV d (mix (laneBits (vGuard p s)) y x) (t || u || predTaint s.c (guardRegV p)) 2 s)

/-- `vmov`: the bits of A (R134). -/
def execVmov (g : Fin 8) (_q : Bool) (d : Dst) (a : Src) (s : State) : Host.Outcome State Fault Refusal :=
  guardedV g s (fun k s => do
    let f := vtOf s.c.a.fmt
    let (x, t, s) ← srcV f a s
    mapElems f false k d true (t || predTaint s.c (guardRegV g)) 2 (fun j _ => (elem x (widthOf f) j, 0)) s)

/-- `vbcast`: a scalar's low bits in every enabled element (R140). -/
def execVbcast (g : Fin 8) (_q : Bool) (d : Dst) (a : Src) (s : State) : Host.Outcome State Fault Refusal :=
  guardedV g s (fun k s => do
    let f := vtOf s.c.a.fmt
    let (x, t, s) ← srcS a s
    mapElems f false k d true (t || predTaint s.c (guardRegV g)) 3 (fun _ _ => (x.toNat % 2 ^ widthOf f, 0)) s)

/-- `vext`: element b mod N to a scalar destination, where its lane is enabled (R140). -/
def execVext (g : Fin 8) (_q : Bool) (d : Dst) (a b : Src) (s : State) : Host.Outcome State Fault Refusal :=
  guardedV g s (fun k s => do
    let f := vtOf s.c.a.fmt
    let (x, t, s) ← srcV f a s
    let (y, u, s) ← srcS b s
    let j := y.toNat % countOf f
    let e := elem x (widthOf f) j
    let r := match kindOf f with
      | .int w => sext64 w e
      | .uint _ | .fp _ => BitVec.ofNat 64 e
    if k.getLsbD (laneOf f j) then writeS d r (t || u || predTaint s.c (guardRegV g)) 3 s else .ok s)

/-- Operand B of `vins`, which stands behind operand A in the queue of a FIFO that both name: what A pops is passed over, not
popped, and the traps of A wait for the lane (R33, R140). -/
def vinsIndex (a b : Src) (s : State) : Res W64 :=
  match a, b with
  | .fifo n, .fifo m => do
    let (w, _) ← popWords m (if n = m then 2 else 1) s
    .ok (w.getLastD 0)
  | _, _ => do
    let (y, _, _) ← srcS b s
    .ok y

/-- `vins`: element b mod N of D takes a scalar's low bits, where its lane is enabled; where it is not, the slot takes no
effect: nothing is popped, and nothing traps or waits but for B (R34, R140). -/
def execVins (g : Fin 8) (_q : Bool) (d : Reg) (a b : Src) (s : State) : Host.Outcome State Fault Refusal :=
  guardedV g s (fun k s => do
    let f := vtOf s.c.a.fmt
    let i ← vinsIndex a b s
    let j := i.toNat % countOf f
    if !k.getLsbD (laneOf f j) then .ok s
    else
      let (old, v) ← srcVReg d s
      let (x, t, s) ← srcS a s
      let (_, u, s) ← srcS b s
      let w := widthOf f
      let n := mix (BitVec.ofNat 2048 ((2 ^ w - 1) <<< (w * j))) old (BitVec.ofNat 2048 ((x.toNat % 2 ^ w) <<< (w * j)))
      writeV (.reg d) n (t || u || v || predTaint s.c (guardRegV g)) 3 s)

/-- `vperm` (R141). -/
def execVperm (g : Fin 8) (_q : Bool) (d : Dst) (a b : Src) (s : State) : Host.Outcome State Fault Refusal :=
  guardedV g s (fun k s => do
    let f := vtOf s.c.a.fmt
    let (x, t, s) ← srcV f a s
    let (y, u, s) ← srcV .uint32 b s
    let n := ofLanes (fun i =>
      let c := lane y i
      if c.getLsbD 31 then 0 else lane x (c.toNat % 64))
    mapLanes k d n (t || u || predTaint s.c (guardRegV g)) 3 s)

/-- `vrot` (R141). -/
def execVrot (g : Fin 8) (_q : Bool) (d : Dst) (a b : Src) (s : State) : Host.Outcome State Fault Refusal :=
  guardedV g s (fun k s => do
    let f := vtOf s.c.a.fmt
    let (x, t, s) ← srcV f a s
    let (y, u, s) ← srcS b s
    let n := ofLanes (fun i => lane x ((i + y.toNat % 64) % 64))
    mapLanes k d n (t || u || predTaint s.c (guardRegV g)) 3 s)

/-- `vred` (R129, R142). -/
def execVred (g : Fin 8) (q : Bool) (d : Dst) (a : Src) (op : RedOp) (s : State) : Host.Outcome State Fault Refusal :=
  guardedV g s (fun k s => do
    let f ← needFmt (classF ++ classI) s
    let (x, t, s) ← srcV f a s
    let old ← oldV d s
    let w := widthOf f
    let (v, fl, xs) := reduce op s.c.a.fmt f k x s.c.a.lanes
    let n := packV w (countOf f) (fun j => if k.getLsbD (laneOf f j) then v else elem old w j)
    deliverV d q n (flagsAll k fl) xs (t || predTaint s.c (guardRegV g) || keptTaint f k d s) 8 s)

/-- `vscan` (R130, R142). -/
def execVscan (g : Fin 8) (q : Bool) (d : Dst) (a : Src) (op : RedOp) (s : State) : Host.Outcome State Fault Refusal :=
  guardedV g s (fun k s => do
    let f ← needFmt (classF ++ classI) s
    let (x, t, s) ← srcV f a s
    let old ← oldV d s
    let w := widthOf f
    let (es, xs) := scanElems op s.c.a.fmt f k x s.c.a.lanes
    let en (j : Nat) : Bool := k.getLsbD (laneOf f j)
    let n := packElems w (es.mapIdx (fun j e => if en j then e.1 else elem old w j))
    let fl : Sticky := (es.mapIdx (fun j e => (j, e.2))).foldl
      (fun fl p => if en p.1 then orFlags fl (laneOf f p.1) p.2 else fl) 0
    deliverV d q (BitVec.ofNat 2048 n) fl xs (t || predTaint s.c (guardRegV g) || keptTaint f k d s) 10 s)

/-- `vsticky` (R121, R143). -/
def execVsticky (g : Fin 8) (_q : Bool) (d : Dst) (s : State) : Host.Outcome State Fault Refusal :=
  guardedV g s (fun k s => do
    let n := ofLanes (fun i => (s.c.a.sticky.extractLsb' (6 * i) 6).zeroExtend 32)
    mapLanes k d n (predTaint s.c (guardRegV g)) 2 s)

/-- `vstclr` (R121, R143). -/
def execVstclr (g : Fin 8) (_q : Bool) (mask : Flags6) (s : State) : Host.Outcome State Fault Refusal :=
  guardedV g s (fun k s => .ok (sched (.stclr (flagsAll k mask)) 1 s))

end Sys2Proof.Machine
end

