-- ==== Sys2Proof/Machine/Convert.lean ====
section
/-! DEFINITION. The conversion instructions and the FMT entries (R83 to R91). -/

namespace Sys2Proof.Machine

/-! ## One element -/

/-- A value converted to an integer format: rounded to an integer, then clamped with saturate or invalid
(R83). -/
def toInt (k : FKind) (r : Rounding) (v : Val) : Nat × Flags6 :=
  let w := match k with | .int w | .uint w => w | .fp _ => 0
  let (lo, hi) := intRange k
  let out : Flags6 := if r.sat then fSAT else fNV
  match v with
  | .nan _ => (0, fNV)
  | .inf n => (wrapN w (if n then lo else hi), out)
  | .num x =>
    let (n, inexact) := roundInt r x
    if n < lo then (wrapN w lo, out)
    else if hi < n then (wrapN w hi, out)
    else (wrapN w n, if inexact then fNX else 0)

/-- A value converted to a floating-point format; a NaN converted to E2M1 gives +0 with invalid (R78, R83). -/
def toFp (k : FpFmt) (r : Rounding) (v : Val) : Nat × Flags6 :=
  match v with
  | .nan sig => (k.nanBits, if sig || !k.hasNan then fNV else 0)
  | .inf n => deliver k r (.inf n 0)
  | .num x => deliver k r (.val x 0)

/-- One element converted from a format to another (R83). -/
def convertElem (from_ to_ : Fmt) (r : Rounding) (b : Nat) : Nat × Flags6 :=
  match kindOf from_, kindOf to_ with
  | .fp a, .fp k => toFp k r (a.operand r.dn b)
  | .fp a, k => toInt k r (a.operand r.dn b)
  | a, .fp k => deliver k r (.val (Exact.ofInt (intValue a b)) 0)
  | a, k => intDeliver k r.sat (intValue a b)

/-! ## vcvt -/

/-- The plan of vcvt (R83): how many elements it converts, and how many parts there are. -/
def cvtCount (f t : Fmt) : Nat := min (countOf f) (countOf t)
def cvtParts (f t : Fmt) : Nat := max (countOf f) (countOf t) / cvtCount f t

/-- `vcvt` (R83). -/
def execVcvt (g : Fin 8) (q : Bool) (d : Dst) (a : Src) (h : Fin 4) (t : Fmt) (s : State) :
    Host.Outcome State Fault Refusal :=
  guardedV g s (fun k s => do
    let f := vtOf s.c.a.fmt
    let n := cvtCount f t
    need (cvtParts f t ≠ 8 && decide (h.val < cvtParts f t)) .format
    let (x, u, s) ← srcV f a s
    let old ← oldV d s
    let w := widthOf t
    let fmt := s.c.a.fmt
    let narrow : Bool := countOf t < countOf f
    let base := if countOf f < countOf t then h.val * n else 0
    let sbase := if narrow then h.val * n else 0
    let (vs, fl, xs) := elemLoop w (isSto fmt) (laneOf t) (fun i => k.getLsbD i) old
      (fun di st => convertElem f t (roundingOf fmt st) (elem x (widthOf f) (di - base + sbase)))
      (span base n) 0 s.c.a.lanes
    let vals : Nat := packElems w vs <<< (w * base)
    let part : Nat := (2 ^ (w * n) - 1) <<< (w * base)
    let kept := oldTaint d s && (n < countOf t || someOff t k)
    deliverV d q (mix (BitVec.ofNat 2048 part) old (BitVec.ofNat 2048 vals)) fl xs
      (u || predTaint s.c (guardRegV g) || kept) 4 s)

/-! ## Block images (R72, R73) -/

/-- A block format's element format, the largest exponent of its elements, and its width (R72). -/
def blockElem : BlockFmt → Fmt
  | .bf8 => .e4m3 | .bfp4 => .e2m1 | .bi4 => .int4
def blockEmax : BlockFmt → Int
  | .bf8 => 8 | .bfp4 => 2 | .bi4 => 2

/-- The bytes of the 64 elements of a block group: its scales follow them (R73). -/
def blockBytes (t : BlockFmt) : Nat := match t with | .bf8 => 64 | .bfp4 | .bi4 => 32

/-- Element i of a block group whose bytes are the number x (R71, R73). -/
def blockElemAt (t : BlockFmt) (x i : Nat) : Nat :=
  let w := widthOf (blockElem t)
  x / 2 ^ (w * i) % 2 ^ w

/-- The scale byte of block j (R73). -/
def blockScaleAt (t : BlockFmt) (x j : Nat) : Nat := x / 2 ^ (8 * (blockBytes t + j)) % 256

/-- The value of an element of a block's element format; INT4 has integers (R72). -/
def blockValue (t : BlockFmt) (b : Nat) : Val :=
  match kindOf (blockElem t) with
  | .fp k => k.value b
  | k => .num (Exact.ofInt (intValue k b))

/-- The largest element of a sign (R84). -/
def blockMax (t : BlockFmt) (neg : Bool) : Nat :=
  match t with
  | .bf8 => fpE4M3.signBit neg + fpE4M3.maxBits
  | .bfp4 => fpE2M1.signBit neg + fpE2M1.maxBits
  | .bi4 => if neg then 8 else 7

/-- A quotient rounded to the element format, clamped to its range with saturate and inexact (R84). -/
def blockRound (t : BlockFmt) (r : Rounding) (x : Exact) : Nat × Flags6 :=
  match kindOf (blockElem t) with
  | .fp k => roundTo k { r with sat := true, dn := false } x
  | k =>
    let (n, inexact) := roundInt r x
    let (lo, hi) := intRange k
    if n < lo then (wrapN 4 lo, fSAT ||| fNX)
    else if hi < n then (wrapN 4 hi, fSAT ||| fNX)
    else (wrapN 4 n, if inexact then fNX else 0)

/-- A zero of a sign in the element format (R84). -/
def blockZero (t : BlockFmt) (neg : Bool) : Nat :=
  match kindOf (blockElem t) with
  | .fp k => k.signBit neg
  | _ => 0

/-- The larger magnitude of two (R84). -/
def maxMag (x y : Exact) : Exact :=
  if ({ x with neg := false }).lt { y with neg := false } then y else x

/-- The scale byte and how each element is encoded, for a block of four values (R84). -/
inductive BlockCase where
  | nan
  | inf
  | zero
  | scaled (e : Int)
deriving DecidableEq, Repr

def blockCase (t : BlockFmt) (vs : List Val) : BlockCase :=
  if vs.any Val.isNan then .nan
  else if vs.any Val.isInf then .inf
  else
    let m := vs.foldl (fun m v => match v with | .num x => maxMag m x | _ => m) (Exact.zero false)
    if m.isZero then .zero else .scaled (max (m.log - blockEmax t) (-127))

def scaleByte : BlockCase → Nat
  | .nan => 0xFF
  | .inf => 0xFE
  | .zero => 0x7F
  | .scaled e => (e + 127).toNat

/-- One element of a block (R84). -/
def blockEncode (t : BlockFmt) (c : BlockCase) (r : Rounding) (v : Val) : Nat × Flags6 :=
  match c, v with
  | .nan, .nan sig => (0, if sig then fNV else 0)
  | .nan, _ => (0, 0)
  | .inf, .inf n => (blockMax t n, fSAT)
  | .inf, .num x => if x.isZero then (blockZero t x.neg, 0) else blockRound t r (x.scale (-127))
  | .zero, .num x => (blockZero t x.neg, 0)
  | .scaled e, .num x => if x.isZero then (blockZero t x.neg, 0) else blockRound t r (x.scale (-e))
  | _, _ => (0, 0)

/-- `vqnt` (R84): under STO element i of A steps lane i, where its flags go too, though R80 also names the lane that holds an
element in the destination (log 85). -/
def execVqnt (q : Bool) (d : Dst) (a : Src) (t : BlockFmt) (s : State) : Host.Outcome State Fault Refusal :=
  always s (fun s => do
    let fmt := s.c.a.fmt
    let (x, u, s) ← srcV .fp32 a s
    let val (i : Nat) : Val := fpFP32.operand (dnOf fmt) (elem x 32 i)
    let cases_ := (List.range 16).map (fun j => blockCase t ((span (4 * j) 4).map val))
    let (es, fl, xs) := elemLoop 32 (isSto fmt) (fun i => i) (fun _ => true) 0
      (fun i st => blockEncode t (cases_.getD (i / 4) .zero) (roundingOf fmt st) (val i)) (List.range 64) 0 s.c.a.lanes
    let elems := packElems (widthOf (blockElem t)) es
    let scales := packElems 8 (cases_.map scaleByte)
    deliverV d q (BitVec.ofNat 2048 (elems + scales * 2 ^ (8 * blockBytes t))) fl xs u 6 s)

/-- `vdqn` (R85). A constant, the literal or the lane index as A, which is a byte image here, is read as FP32 elements
(log 86). -/
def execVdqn (q : Bool) (d : Dst) (a : Src) (t : BlockFmt) (s : State) : Host.Outcome State Fault Refusal :=
  always s (fun s => do
    let fmt := s.c.a.fmt
    let (x, u, s) ← srcV .fp32 a s
    let one (i : Nat) (st : W32) : Nat × Flags6 :=
      let sc := blockScaleAt t x.toNat (i / 4)
      match blockValue t (blockElemAt t x.toNat i) with
      | .num y => if sc = 0xFF then (fpFP32.nanBits, 0) else roundTo fpFP32 (roundingOf fmt st) (y.scale ((sc : Int) - 127))
      | _ => (fpFP32.nanBits, 0)
    let (es, fl, xs) := elemLoop 32 (isSto fmt) (fun i => i) (fun _ => true) 0 one (List.range 64) 0 s.c.a.lanes
    deliverV d q (BitVec.ofNat 2048 (packElems 32 es)) fl xs u 4 s)

/-! ## vrnd and vscl -/

/-- The mode of vrnd (R86). -/
def rndMode (fmt : W64) : RndSel → RMode
  | .mode m => m
  | .current => rmOf fmt

/-- One element rounded to an integral value (R86). -/
def rndElem (k : FpFmt) (m : RMode) (fmt : W64) (b : Nat) (x : W32) : Nat × Flags6 :=
  let r : Rounding := ⟨m, x, satOf fmt, dnOf fmt⟩
  match k.operand r.dn b with
  | .nan sig => (k.nanBits, if sig then fNV else 0)
  | .inf n => (k.signBit n + k.infBits, 0)
  | .num y =>
    if y.isZero then (k.signBit y.neg, 0)
    else
      let (n, inexact) := roundInt r y
      let (z, fl) := roundTo k r ⟨y.neg, n.natAbs, 0, false⟩
      (z, fl ||| (if inexact then fNX else 0))

/-- `vrnd` (R86): the slot's own mode decides whether its elements step. -/
def execVrnd (g : Fin 8) (q : Bool) (d : Dst) (a : Src) (m : RndSel) (s : State) : Host.Outcome State Fault Refusal :=
  guardedV g s (fun k s => do
    let f ← needFmt (classF ++ class8) s
    let (x, t, s) ← srcV f a s
    let old ← oldV d s
    let w := widthOf f
    let fmt := s.c.a.fmt
    let mode := rndMode fmt m
    let (vs, fl, xs) := elemLoop w (mode = .sto) (laneOf f) (fun i => k.getLsbD i) old
      (fun j st => match kindOf f with
        | .fp kf => rndElem kf mode fmt (elem x w j) st
        | _ => (0, 0)) (List.range (countOf f)) 0 s.c.a.lanes
    deliverV d q (BitVec.ofNat 2048 (packElems w vs)) fl xs (t || predTaint s.c (guardRegV g) || keptTaint f k d s) 4 s)

/-- One element times 2^n (R87). -/
def sclElem (fmt : W64) (f : Fmt) (b : Nat) (n : Int) (x : W32) : Nat × Flags6 :=
  match kindOf f with
  | .fp k =>
    match k.operand (dnOf fmt) b with
    | .nan sig => (k.nanBits, if sig then fNV else 0)
    | .inf neg => (k.signBit neg + k.infBits, 0)
    | .num y => if y.isZero then (k.signBit y.neg, 0) else roundTo k (roundingOf fmt x) (y.scale n)
  | _ => (0, 0)

/-- `vscl` (R87). -/
def execVscl (g : Fin 8) (q : Bool) (d : Dst) (a b : Src) (s : State) : Host.Outcome State Fault Refusal :=
  guardedV g s (fun k s => do
    let f ← needFmt (classF ++ class8) s
    let (x, t, s) ← srcV f a s
    let (y, u, s) ← srcV .int32 b s
    mapElems f true k d q (t || u || predTaint s.c (guardRegV g)) 4
      (fun j st => sclElem s.c.a.fmt f (elem x (widthOf f) j) (lane y (laneOf f j)).toInt st) s)

/-! ## SP2 -/

/-- The value of an SP2 byte (R74). -/
def sp2Value (b : Nat) : Exact :=
  let t (s k : Nat) : Exact := ⟨s = 1, 1, -(k : Int), false⟩
  (t (b / 128 % 2) (b / 16 % 8)).add false (t (b / 8 % 2) (b % 8))

/-- The distance of two values, in units of 2^e. -/
def distance (x y : Exact) (e : Int) : Nat := (x.units e - y.units e).natAbs

/-- A byte is a better encoding of x than another: nearer; at one distance of the smaller magnitude; of one
value the smaller byte (R74, R88). -/
def sp2Better (x : Exact) (e : Int) (b c : Nat) : Bool :=
  let db := distance x (sp2Value b) e
  let dc := distance x (sp2Value c) e
  let mb := ((sp2Value b).units e).natAbs
  let mc := ((sp2Value c).units e).natAbs
  db < dc || (db = dc && (mb < mc || (mb = mc && b < c)))

/-- The canonical encoding of the SP2 value nearest to a value (R74, R88). -/
def sp2Encode (v : Val) : Nat × Flags6 :=
  let big (neg : Bool) : Nat := if neg then 0x88 else 0x00
  match v with
  | .nan _ => (0x08, fNV)
  | .inf n => (big n, fSAT ||| fNX)
  | .num x =>
    if (Exact.ofInt 2).lt { x with neg := false } then (big x.neg, fSAT ||| fNX)
    else
      let e := min x.exp (-7)
      let b := (List.range 256).foldl (fun c b => if sp2Better x e b c then b else c) 0x08
      (b, if (sp2Value b).eqv x then 0 else fNX)

/-- `vsp2.enc` (R88): the bytes go to lanes 16H to 16H + 15 under their guard; flags to the lanes of the
source elements. Under a partial guard element i raises its flags where lane i is enabled, whether or not the lane that takes
its byte is (log 87). -/
def execVsp2Enc (g : Fin 8) (q : Bool) (d : Dst) (a : Src) (h : Fin 4) (s : State) :
    Host.Outcome State Fault Refusal :=
  guardedV g s (fun k s => do
    let (x, t, s) ← srcV .fp32 a s
    let old ← oldV d s
    let dn := dnOf s.c.a.fmt
    let enc (i : Nat) : Nat × Flags6 := sp2Encode (fpFP32.operand dn (elem x 32 i))
    let n := packV 8 256 (fun j =>
      if j / 64 = h.val && k.getLsbD (j / 4) then (enc (j % 64)).1 else elem old 8 j)
    let fl : Sticky := (List.range 64).foldl
      (fun fl i => if k.getLsbD i then orFlags fl i (enc i).2 else fl) 0
    deliverV d q n fl s.c.a.lanes (t || predTaint s.c (guardRegV g) || oldTaint d s) 4 s)

/-- `vsp2.dec` (R88). A constant, the literal or the lane index as A is read as FP32 elements (log 86); FMT.RM is ignored as in
encoding, and no lane state steps (log 109). -/
def execVsp2Dec (g : Fin 8) (q : Bool) (d : Dst) (a : Src) (h : Fin 4) (s : State) :
    Host.Outcome State Fault Refusal :=
  guardedV g s (fun k s => do
    let (x, t, s) ← srcV .fp32 a s
    mapElems .fp32 false k d q (t || predTaint s.c (guardRegV g)) 4
      (fun i _ => roundTo fpFP32 ⟨.rne, 0, false, false⟩ (sp2Value (elem x 8 (64 * h.val + i)))) s)

/-! ## Packing within lanes -/

/-- `vpk` (R89). -/
def execVpk (g : Fin 8) (_q : Bool) (d : Dst) (a b : Src) (s : State) : Host.Outcome State Fault Refusal :=
  guardedV g s (fun k s => do
    let f := vtOf s.c.a.fmt
    let w := widthOf f
    need (w = 16 || w = 8) .format
    let (x, t, s) ← srcV f a s
    let (y, u, s) ← srcV f b s
    let n := ofLanes (fun i =>
      let p := (lane x i).toNat
      let r := (lane y i).toNat
      BitVec.ofNat 32 (if w = 16 then p % 2 ^ 16 + r % 2 ^ 16 * 2 ^ 16
        else p % 256 + r % 256 * 2 ^ 8 + bitsOf p 23 16 * 2 ^ 16 + bitsOf r 23 16 * 2 ^ 24))
    mapLanes k d n (t || u || predTaint s.c (guardRegV g)) 3 s)

/-- `vupk` (R89). -/
def execVupk (g : Fin 8) (_q : Bool) (d : Dst) (a : Src) (x w : Bool) (i : Fin 4) (s : State) :
    Host.Outcome State Fault Refusal :=
  guardedV g s (fun k s => do
    let f := vtOf s.c.a.fmt
    let (y, t, s) ← srcV f a s
    let n := if w then 8 else 16
    let one (j : Nat) : W32 :=
      let e := (lane y j).toNat / 2 ^ (n * i.val) % 2 ^ n
      if x then BitVec.ofInt 32 (sextN n e) else BitVec.ofNat 32 e
    mapLanes k d (ofLanes one) (t || predTaint s.c (guardRegV g)) 3 s)

/-! ## FMT -/

/-- The codes legal as FMT.VT (R75). -/
def legalVT (c : Nat) : Bool := [0, 1, 2, 3, 4, 6, 7, 8, 9, 11, 12, 13].contains c

/-- The new FMT of `fmt.set`: reserved bits zero (R76, R90). -/
def newFmt (old a b : W64) : W64 := mix b old a &&& 0xFFFFFFFF0FFFF3FF

/-- `fmt.set` (R90). -/
def execFmtSet (g : Fin 16) (a b : Src) (s : State) : Host.Outcome State Fault Refusal :=
  guarded g s (fun s => do
    let (x, y, _, s) ← srcSS a b s
    let n := newFmt s.c.a.fmt x y
    if 4 < fieldOf n 6 4 || !legalVT (fieldOf n 3 0) then trapWith .format
    else .ok (sched (.fmt n y) 4 s))

/-- `fmt.get` (R91). -/
def execFmtGet (g : Fin 16) (d : Dst) (s : State) : Host.Outcome State Fault Refusal :=
  guarded g s (fun s => writeS d s.c.a.fmt (predTaint s.c (guardReg g)) 1 s)

end Sys2Proof.Machine
end

