-- ==== Sys2Proof/Machine/Hbm.lean ====
section
/-! DEFINITION. HBM below the L2: where a word lies, its transfers and their check, its ECC decode, the logs, and what an
access waits for (R145, R425, R426, R431 to R434). -/

namespace Sys2Proof.Machine

/-- The HBM health record replaced. -/
def State.withHbm (s : State) (h : Hbm) : State := s.withPkg { s.pkg with hbm := h }

/-! ## Where a word lies (R145, R431) -/

/-- The stack of an HBM address, its pseudo-channel of the 512, and the channel of its stack that carries it. -/
def hbmStack (pa : Nat) : Nat := bitsOf pa 38 36
def hbmPc (pa : Nat) : Nat := bitsOf pa 38 30
def hbmChan (pa : Nat) : Nat := bitsOf pa 35 30 / 2

/-- The words that an access to bytes at physical addresses moves: of HBM, both words of each sector (R431). -/
def hbmWords (pas : List Nat) : List Nat :=
  ((pas.filter (fun a => a < 2 ^ 39)).map (fun a => a / 128)).eraseDups.flatMap (fun k => [2 * k, 2 * k + 1])

/-! ## The logs (R426, R434) -/

/-- ECCLOG after one more cell error. -/
def eccLogged (x : W64) (pa : Nat) (unc : Bool) (synd : Nat) : W64 :=
  let addr := bitsOf pa 38 6
  if !x.getLsbD 63 then joinFields [(1, 63), (unc.toNat, 62), (1, 48), (addr, 12), (synd, 0)]
  else
    let ovf : Bool := x.getLsbD 61 || fieldOf x 44 12 ≠ addr
    joinFields [(1, 63), ((x.getLsbD 62).toNat, 62), (ovf.toNat, 61), (min (fieldOf x 60 48 + 1) 0x1FFF, 48),
      (fieldOf x 44 12, 12), (fieldOf x 7 0, 0)]

/-- LINKLOG after one more retry, made because parity failed on these lanes of a stack: the first of them is logged (log 110). -/
def linkLogged (x : W64) (stack : Nat) (lanes : List Nat) : W64 :=
  let place (lane : Nat) : Nat := stack * 2 ^ 11 + lane
  let held : Nat := if x.getLsbD 63 then fieldOf x 47 34 else place (lanes.headD 0)
  let n : Nat := if x.getLsbD 63 then min (fieldOf x 60 48 + 1) 0x1FFF else 1
  let ovf : Bool := x.getLsbD 61 || lanes.any (fun l => place l ≠ held)
  joinFields [(1, 63), ((x.getLsbD 62).toNat, 62), (ovf.toNat, 61), (n, 48), (held, 34), (held % 2 ^ 11 / 64, 29)]

/-- LINKLOG.FAIL is set. -/
def linkFailed (x : W64) : W64 := x ||| 0x4000000000000000

/-- A field of LANEMAP for a stack (R426). -/
def laneMapBit (stack k : Nat) (x : W64) : W64 := x ||| BitVec.ofNat 64 (2 ^ (8 * stack + k))
def laneMapSpare (stack : Nat) (x : W64) : W64 := x + BitVec.ofNat 64 (2 ^ (8 * stack + 2))

/-- An event lies within 1 s of the latest one (R425). -/
def within1s (t now : W64) : Bool := (now - t).toNat ≤ 1000000000

/-- A pseudo-channel is retired (R425). -/
def retirePc (pc : Nat) (h : Hbm) : Hbm :=
  if h.retiredPc.contains pc then h
  else { h with retiredPc := pc :: h.retiredPc, lanemap := laneMapBit (pc / 64) 1 h.lanemap }

/-- A pseudo-channel is out of use: retired, or of a stack retired at boot (R424, R425). -/
def pcGone (h : Hbm) (pc : Nat) : Bool := h.retiredPc.contains pc || h.lanemap.getLsbD (8 * (pc / 64))

/-- A byte of HBM lies in a pseudo-channel that is out of use. -/
def paGone (h : Hbm) (pa : Nat) : Bool := pa < 2 ^ 39 && pcGone h (hbmPc pa)

/-- A cell error is logged, and 16 corrected ones within 1 s, or one that cannot be corrected, retire the pseudo-channel
(R425, R426). -/
def noteCellError (now : W64) (pa : Nat) (unc : Bool) (synd : Nat) (h : Hbm) : Hbm :=
  let h := { h with ecclog := eccLogged h.ecclog pa unc synd }
  let pc := hbmPc pa
  if unc then retirePc pc h
  else
    let l := h.cellErrs.filter (fun e => within1s e.2 now) ++ [(pc, now)]
    let h := { h with cellErrs := l }
    if 16 ≤ (l.filter (fun e => e.1 = pc)).length then retirePc pc h else h

/-! ## The transfer check (R432, R433) -/

/-- A lane of a stack still carries data: no spare has replaced it. -/
def laneInUse (h : Hbm) (stack lane : Nat) : Bool := !h.spares.contains (stack, lane / 64, lane)

/-- The channel is swapping a lane: its transfers are held. -/
def chanSwaps (h : Hbm) (stack chan : Nat) : Bool := h.swapping.any (fun x => x.1 = stack && x.2 / 64 = chan)

/-- The spare of a channel is free, and no swap of the channel is under way. -/
def spareFree (h : Hbm) (stack chan : Nat) : Bool :=
  !h.spares.any (fun x => x.1 = stack && x.2.1 = chan) && !chanSwaps h stack chan

/-- How the transfer check ends: the word has passed, or its last retry failed too, or the retry of that number is held for a
swap. -/
inductive Check where
  | passed | failed
  | held (retries : Nat)
deriving DecidableEq, Repr

/-- The transfer check of a word after r retries, the next transfers failing on these lanes (R426, R433): each retry is logged
and counted for its lanes; the first lane for which it is the third within 1 s is swapped, where the spare is free; after four
the word has failed. The answer holds what of the list is still to come. -/
def checkWord (now : W64) (stack : Nat) : List (List Nat) → Nat → Hbm → Check × List (List Nat) × Hbm
  | [], _, h => (.passed, [], h)
  | f :: l, r, h =>
    match f.filter (laneInUse h stack) with
    | [] => (.passed, l, h)
    | lanes =>
      if r = 4 then (.failed, l, { h with linklog := linkFailed h.linklog })
      else
        let m := h.retries.filter (fun e => within1s e.2.2 now) ++ lanes.map (fun k => (stack, k, now))
        let h := { h with linklog := linkLogged h.linklog stack lanes, retries := m }
        let third (k : Nat) : Bool := 3 ≤ (m.filter (fun e => e.1 = stack && e.2.1 = k)).length && spareFree h stack (k / 64)
        match lanes.find? third with
        | some k => (.held (r + 1), l, { h with swapping := h.swapping ++ [(stack, k)] })
        | none => checkWord now stack l (r + 1) h

/-! ## ECC and delivery (R432, R434) -/

/-- The word of a number is delivered with poison, or without. -/
def markPoison (on : Bool) (w : Nat) (h : Hbm) : Hbm :=
  let l := h.poison.filter (fun x => x ≠ w)
  { h with poison := if on then w :: l else l }

/-- The bytes of a word are not known (log 7). -/
def spoilWord (w : Nat) (s : State) : State :=
  s.withPkg { s.pkg with
    mem := putCells s.pkg.mem ((List.range 64).map (fun i => (64 * w + i, Config.freeByte s.tick (64 * w + i)))) }

/-- The symbols of a word that its cells hold wrong. -/
def badSymbols (h : Hbm) (w : Nat) : List Nat := (((look h.cells w).getD []).filter (fun k => k < 128)).eraseDups

/-- The ECC decode of a word, and its delivery (R432, R434, log 7). -/
def decodeWord (w : Nat) (s : State) : State :=
  let h := s.pkg.hbm
  let now := s.pkg.devtime
  let lost : State := s.withHbm (markPoison true w (noteCellError now (64 * w) true 0xFF h))
  match badSymbols h w with
  | [] => s.withHbm (markPoison false w h)
  | [k] => s.withHbm (markPoison false w (noteCellError now (64 * w) false (0x80 + k) h))
  | [_, _] => lost
  | _ =>
    match Config.eccBeyond s.tick % 3 with
    | 0 => lost
    | 1 =>
      let synd := 0x80 + (Config.freeWord s.tick).toNat % 128
      spoilWord w (s.withHbm (markPoison false w (noteCellError now (64 * w) false synd h)))
    | _ => spoilWord w (s.withHbm (markPoison false w h))

/-- The word has been read, and waits for the access that moves it. -/
def noteFetched (w : Nat) (s : State) : State :=
  s.withHbm { s.pkg.hbm with fetched := w :: s.pkg.hbm.fetched.filter (fun x => x ≠ w) }

/-- The transfers of a word after r retries, on a channel that is not swapping. -/
def transferWord (w r : Nat) (s : State) : State :=
  let h := s.pkg.hbm
  let (c, l, h) := checkWord s.pkg.devtime (hbmStack (64 * w)) ((look h.parity w).getD []) r h
  let h := { h with parity := if l.isEmpty then del h.parity w else put h.parity w l }
  match c with
  | .passed => noteFetched w (decodeWord w (s.withHbm h))
  | .failed => noteFetched w (s.withHbm (markPoison true w h))
  | .held r => s.withHbm { h with waiting := h.waiting ++ [(w, r)] }

/-- A word is read from HBM (R432): a transfer of a channel that swaps a lane is held (R433). -/
def readWord (w : Nat) (s : State) : State :=
  let h := s.pkg.hbm
  if chanSwaps h (hbmStack (64 * w)) (hbmChan (64 * w)) then s.withHbm { h with waiting := h.waiting ++ [(w, 0)] }
  else transferWord w 0 s

/-- What an event makes of a word's cells and its next transfers; a lane of another channel does not carry it. -/
def strike (x : HbmXfer) (h : Hbm) : Hbm :=
  let w := x.pa / 64
  let l := x.parity.map (fun f => f.filter (fun k => k / 64 = hbmChan x.pa))
  { h with
    cells := if x.badSymbols.isEmpty then del h.cells w else put h.cells w x.badSymbols
    parity := if l.isEmpty then del h.parity w else put h.parity w l }

/-- The spare of a channel is in use (R425, R433): LANEMAP shows it, and the held transfers run on the new lane. -/
def swapDone (stack chan : Nat) (s : State) : State :=
  let h := s.pkg.hbm
  match h.swapping.find? (fun x => x.1 = stack && x.2 / 64 = chan) with
  | none => s
  | some e =>
    let mine (x : Nat × Nat) : Bool := hbmStack (64 * x.1) = stack && hbmChan (64 * x.1) = chan
    let s := s.withHbm { h with
      swapping := h.swapping.erase e
      spares := h.spares ++ [(stack, chan, e.2)]
      lanemap := laneMapSpare stack h.lanemap
      waiting := h.waiting.filter (fun x => !mine x) }
    (h.waiting.filter mine).foldl (fun s x => transferWord x.1 x.2 s) s

/-! ## Accesses (R431, R432) -/

/-- No word is struck, poisoned or held: every transfer passes and changes nothing. -/
def Hbm.quiet (h : Hbm) : Bool :=
  h.cells.isEmpty && h.parity.isEmpty && h.poison.isEmpty && h.swapping.isEmpty && h.waiting.isEmpty

/-- One word of an access is read, unless the access has it already, a transfer of it is held, or the L2 holds its sector
(log 106). -/
def fetchWordOf (s : State) (w : Nat) : State :=
  let h := s.pkg.hbm
  if h.fetched.contains w || h.waiting.any (fun x => x.1 = w) then s
  else if Config.l2Holds s.tick (w / 2) then noteFetched w s
  else readWord w s

/-- The words that an access reads are transferred, in the order of their bytes. -/
def fetchHbm (pas : List Nat) (s : State) : State :=
  if s.pkg.hbm.quiet then s else (hbmWords pas).foldl fetchWordOf s

/-- Every word that an access reads has been delivered, so every log update that they cause is made (R432). -/
def hbmReady (h : Hbm) (pas : List Nat) : Bool := h.quiet || (hbmWords pas).all (fun w => h.fetched.contains w)

/-- A write meets a channel that is swapping a lane: its transfer is held (R433). -/
def hbmHeld (h : Hbm) (pas : List Nat) : Bool :=
  !h.swapping.isEmpty && pas.any (fun a => a < 2 ^ 39 && chanSwaps h (hbmStack a) (hbmChan a))

/-- An access takes its words. -/
def unfetch (pas : List Nat) (s : State) : State :=
  if s.pkg.hbm.fetched.isEmpty then s
  else
    let l := hbmWords pas
    s.withHbm { s.pkg.hbm with fetched := s.pkg.hbm.fetched.filter (fun w => !l.contains w) }

/-- An access has the word of a physical address, and it was delivered poisoned (R432). -/
def poisoned (p : Pkg) (pa : Nat) : Bool := p.hbm.poison.contains (pa / 64) && p.hbm.fetched.contains (pa / 64)

end Sys2Proof.Machine
end

