-- ==== Sys2Proof/Machine/MemSlots.lean ====
section
/-! DEFINITION. Scalar and vector memory access, prefetch, the read-only path and `tlb.inv` (R166 to R176),
and the atomics (R203). -/

namespace Sys2Proof.Machine

/-! ## Scalar loads and stores -/

/-- `ldb` (R166). -/
def execLdb (g : Fin 16) (d : Dst) (a b : Src) (s : State) : Host.Outcome State Fault Refusal :=
  guarded g s (loadS 1 false g d a b)

/-- `ldh` (R166). -/
def execLdh (g : Fin 16) (d : Dst) (a b : Src) (s : State) : Host.Outcome State Fault Refusal :=
  guarded g s (loadS 2 false g d a b)

/-- `ldw` (R166). -/
def execLdw (g : Fin 16) (d : Dst) (a b : Src) (s : State) : Host.Outcome State Fault Refusal :=
  guarded g s (loadS 4 false g d a b)

/-- `ldd` (R166). -/
def execLdd (g : Fin 16) (d : Dst) (a b : Src) (s : State) : Host.Outcome State Fault Refusal :=
  guarded g s (loadS 8 false g d a b)

/-- `stb` (R167). -/
def execStb (g : Fin 16) (d : Reg) (a b : Src) (s : State) : Host.Outcome State Fault Refusal :=
  guarded g s (storeS 1 d a b)

/-- `sth` (R167). -/
def execSth (g : Fin 16) (d : Reg) (a b : Src) (s : State) : Host.Outcome State Fault Refusal :=
  guarded g s (storeS 2 d a b)

/-- `stw` (R167). -/
def execStw (g : Fin 16) (d : Reg) (a b : Src) (s : State) : Host.Outcome State Fault Refusal :=
  guarded g s (storeS 4 d a b)

/-- `std` (R167). -/
def execStd (g : Fin 16) (d : Reg) (a b : Src) (s : State) : Host.Outcome State Fault Refusal :=
  guarded g s (storeS 8 d a b)

/-- `ldc` loads 8 bytes and taints its result (R168). -/
def execLdc (g : Fin 16) (d : Dst) (a b : Src) (s : State) : Host.Outcome State Fault Refusal :=
  guarded g s (loadS 8 true g d a b)

/-- `ldro` (R169): device space only; its value is chosen when it is performed, among those committed since the
bound, and it never sees the store buffer. -/
def execLdro (g : Fin 16) (d : Dst) (a b : Src) (s : State) : Host.Outcome State Fault Refusal :=
  guarded g s (fun s => do
    let (x, y, t, s) ← srcSS a b s
    let ea := effAddr x y
    let t := t || predTaint s.c (guardReg g)
    if spaceOf ea ≠ 0 || nodeOf ea ≠ 0 then trapWith .address
    else if ea.toNat % 8 ≠ 0 then trapWith .misalign
    else
      let (pa, s) ← paOf 0 .read ea s
      let s ← claimS d s
      let bytes := (List.range 8).map (fun i => (i, LByte.mem (pa + i)))
      .ok (issueOp (memOp (.loadRo bytes s.c.roBound s.pkg.hist.length) (.scalar d) t t s) s))

/-- `ldpm` (R170). -/
def execLdpm (g : Fin 16) (d : Dst) (a b : Src) (s : State) : Host.Outcome State Fault Refusal :=
  guarded g s (fun s => do
    let (x, y, t, s) ← srcSS a b s
    let o := effAddr x y
    let t := t || predTaint s.c (guardReg g)
    pmCheck 8 8 o s
    let (bytes, s) ← loadBytes 4 o 8 0 s
    let s ← claimS d s
    .ok (issueOp (memOp (.load bytes) (.scalar d) t t s) s))

/-- `stpm` (R170). -/
def execStpm (g : Fin 16) (d : Reg) (a b : Src) (s : State) : Host.Outcome State Fault Refusal :=
  guarded g s (fun s => do
    let (x, y, _, s) ← srcSS a b s
    let (v, _) ← srcReg d s
    let o := effAddr x y
    pmCheck 8 8 o s
    let (pa, s) ← paOf 4 .write o s
    bufferStore (cellsAt pa (bytesOf 8 v.toNat)) s)

/-- `roinv` (R171): the read-only bound becomes the present point of the write history. -/
def execRoinv (g : Fin 16) (s : State) : Host.Outcome State Fault Refusal :=
  guarded g s (fun s => .ok (s.withC { s.c with roBound := s.pkg.hist.length }))

/-- The TLB entries that `tlb.inv` keeps (R172). -/
def tlbKeeps (asid : BitVec 12) (mode : Nat) (a : W64) (e : TlbEnt) : Bool :=
  match mode with
  | 0 =>
    let space := spaceOf a
    !(space < 4 && e.asid = asid && e.space = space && a.toNat % 2 ^ 48 / 2 ^ e.log = e.page)
  | 1 => e.asid ≠ asid
  | _ => !(e.asid = asid && e.space = 5 && e.tid = a.toNat % 1024)

/-- `tlb.inv` (R172): the removal is complete when the step is. -/
def execTlbInv (g : Fin 16) (a b : Src) (s : State) : Host.Outcome State Fault Refusal :=
  guarded g s (fun s => do
    need s.c.id.sup .priv
    let (x, y, _, s) ← srcSS a b s
    need (y.toNat % 4 ≠ 3) .illegal
    .ok (s.withPkg { s.pkg with tlb := s.pkg.tlb.filter (tlbKeeps (asidOf s.c.a) (y.toNat % 4) x) }))

/-! ## Contiguous vector access -/

/-- The enabled lanes in rising order. -/
def lanesOf (k : LaneMask) : List Nat := (List.range 64).filter (fun i => k.getLsbD i)

/-- Each lane's four bytes are translated, checked as parts of one access (R160, R173): the physical address of each. -/
def lanePas (space : Nat) (k : Access) (ea : W64) : List Nat → State → Res (List (Nat × Nat) × State) :=
  inParts (fun i s => do
    let (pa, s) ← paOf space k (ea + BitVec.ofNat 64 (4 * i)) s
    .ok ((i, pa), s))

/-- The address of the first enabled lane, whose space and node the other lanes share (R173, log 22). -/
def firstLane (k : LaneMask) (ea : W64) : W64 := ea + BitVec.ofNat 64 (4 * (lanesOf k).headD 0)

/-- The offset of a lane in the space of its address. -/
def laneOff (ea : W64) (i : Nat) : Nat := (ea + BitVec.ofNat 64 (4 * i)).toNat % 2 ^ 48

/-- The bytes from the first enabled lane to the last: what a remote load asks for. -/
def laneSpan (k : LaneMask) : Nat := 4 * ((lanesOf k).getLastD 0 - (lanesOf k).headD 0 + 1)

/-- The checks of vld and vst before translation: ADDRESS and MISALIGN of the enabled lanes, or ADDRESS, MISALIGN and
BOUNDS of a PM access (R160, R173, R302). The space, with 4 for PM. -/
def vecSpace (pm : Bool) (k : LaneMask) (ea : W64) (s : State) : Res Nat :=
  let at_ (i : Nat) : W64 := ea + BitVec.ofNat 64 (4 * i)
  if pm then
    if (lanesOf k).any (fun i => spaceOf (at_ i) = 1) then trapWith .address
    else if ea.toNat % 4 ≠ 0 then trapWith .misalign
    else if (lanesOf k).any (fun i => fieldOf s.c.a.pmsize 47 16 * 2 ^ 16 < (at_ i).toNat + 4) then trapWith .bounds
    else .ok 4
  else
    let va := firstLane k ea
    if (lanesOf k).any (fun i => !addressOk true (at_ i) s || spaceOf (at_ i) ≠ spaceOf va || nodeOf (at_ i) ≠ nodeOf va) then
      trapWith .address
    else if ea.toNat % 4 ≠ 0 then trapWith .misalign
    else .ok (spaceOf va)

/-- `vld` (R173). -/
def execVld (g : Fin 8) (pm : Bool) (d : Dst) (a b : Src) (s : State) : Host.Outcome State Fault Refusal :=
  guardedV g s (fun k s => do
    let (x, y, t, s) ← srcSS a b s
    let t := t || predTaint s.c (guardRegV g)
    let ea := effAddr x y
    let space ← vecSpace pm k ea s
    let old ← oldV d s
    if space = 1 then
      let node := nodeOf (firstLane k ea)
      let bytes := (lanesOf k).flatMap (fun i => (List.range 4).map (fun j =>
        (4 * i + j, remoteByte (visibleBuf s) node (laneOff ea i + j))))
      let kind (remote : Bool) : MKind := if remote then .remoteLoad node (laneOff ea ((lanesOf k).headD 0)) bytes else .load bytes
      let op (remote : Bool) (s : State) : MemOp := memOp (kind remote) (.vector d old) (t || keptTaint .fp32 k d s) t s
      if allForwarded bytes then
        let s ← claimV d s
        .ok (issueOp (op false s) s)
      else
        checkDst d s
        remoteRoom node 256 t false false s
        let s ← claimV d s
        .ok (issueFetch node bytes (op true s) s)
    else
      let (pas, s) ← lanePas space .read ea (lanesOf k) s
      let s ← claimV d s
      let buf := visibleBuf s
      let bytes := pas.flatMap (fun p => (List.range 4).map (fun j => (4 * p.1 + j, localByte buf (p.2 + j))))
      .ok (issueOp (memOp (.load bytes) (.vector d old) (t || keptTaint .fp32 k d s) t s) s))

/-- The bytes of the enabled lanes as stores of lanes at addresses. -/
def laneCells (x : VWord) (pas : List (Nat × Nat)) : Cells :=
  pas.flatMap (fun p => cellsAt p.2 (bytesOf 4 (lane x p.1).toNat))

/-- `vst`: one store, its lanes in lane order (R173). A remote one is sent lane run by lane run. -/
def execVst (g : Fin 8) (pm : Bool) (d : Reg) (a b : Src) (s : State) : Host.Outcome State Fault Refusal :=
  guardedV g s (fun k s => do
    let (x, y, _, s) ← srcSS a b s
    let (v, _) ← srcVReg d s
    let ea := effAddr x y
    let space ← vecSpace pm k ea s
    if space = 1 then
      let off := laneOff ea ((lanesOf k).headD 0)
      bufferRemote (.remoteV (nodeOf (firstLane k ea)) off (laneCells v ((lanesOf k).map (fun i => (i, laneOff ea i))))) s
    else
      let (pas, s) ← lanePas space .write ea (lanesOf k) s
      bufferStore (laneCells v pas) s)

/-! ## Typed buffers -/

/-- The region that holds every enabled lane of an access, or BOUNDS (R155, R174). -/
def laneRegion (cb : Bool) (k : LaneMask) (ea : W64) (s : State) : Res Region :=
  let l := lanesOf k
  let lo := ea.toNat + 4 * l.headD 0
  let hi := ea.toNat + 4 * l.getLastD 0 + 4
  match regionAt s.c.regions cb lo (hi - lo) with
  | some r => .ok r
  | none => trapWith .bounds

/-- A typed-buffer load: the front half, or the back half, at the load's own group (R174). -/
def bufLoad (cb back : Bool) (g : Fin 8) (d : Dst) (a b : Src) (k : LaneMask) (s : State) : Res State := do
  let (x, y, t, s) ← srcSS a b s
  let ea := effAddr x y
  need (ea.toNat % 4 = 0) .misalign
  let r ← laneRegion cb k ea s
  need (!cb || !(lanesOf k).any (fun i => onTile s.c (ea.toNat + 4 * i) 4)) .tileOpen
  checkDst d s
  behindMatrix s
  let old ← oldV d s
  soundBuf cb ((lanesOf k).flatMap (fun i => span (r.phys back (ea.toNat + 4 * i)) 4)) s
  let byte (o : Nat) : Byte := racedByte s cb o (getByte (s.buf cb) o)
  let n := ofLanes (fun i =>
    if k.getLsbD i then BitVec.ofNat 32 (ofBytes ((span (r.phys back (ea.toNat + 4 * i)) 4).map byte)) else lane old i)
  writeV d n (t || predTaint s.c (guardRegV g) || keptTaint .fp32 k d s) 4 s

/-- A typed-buffer store: the back half or the single copy, one group later (R156, R174). -/
def bufStore (cb : Bool) (d : Reg) (a b : Src) (k : LaneMask) (s : State) : Res State := do
  let (x, y, _, s) ← srcSS a b s
  let (v, _) ← srcVReg d s
  let ea := effAddr x y
  need (ea.toNat % 4 = 0) .misalign
  let r ← laneRegion cb k ea s
  need (!cb || !(lanesOf k).any (fun i => onTile s.c (ea.toNat + 4 * i) 4)) .tileOpen
  behindMatrix s
  let w := laneCells v ((lanesOf k).map (fun i => (i, r.phys true (ea.toNat + 4 * i))))
  behindSource cb w s
  .ok (sched (.buf cb (w.map (fun c => (c.1, racedByte s cb c.1 c.2)))) 1 s)

/-- `vlda` (R174). -/
def execVlda (g : Fin 8) (h : Bool) (d : Dst) (a b : Src) (s : State) : Host.Outcome State Fault Refusal :=
  guardedV g s (bufLoad false h g d a b)
/-- `vsta` (R174). -/
def execVsta (g : Fin 8) (d : Reg) (a b : Src) (s : State) : Host.Outcome State Fault Refusal :=
  guardedV g s (bufStore false d a b)
/-- `vldc` (R174). -/
def execVldc (g : Fin 8) (d : Dst) (a b : Src) (s : State) : Host.Outcome State Fault Refusal :=
  guardedV g s (bufLoad true false g d a b)
/-- `vstc` (R174). -/
def execVstc (g : Fin 8) (d : Reg) (a b : Src) (s : State) : Host.Outcome State Fault Refusal :=
  guardedV g s (bufStore true d a b)

/-! ## Tensors (R150, R151) -/

/-- The fields of DESC (R150). -/
def Tensor.space (t : Tensor) : Nat := bitsOf t.desc 2 1
def Tensor.phased (t : Tensor) : Bool := t.desc.testBit 3
def Tensor.esz (t : Tensor) : Nat := bitsOf t.desc 11 8
def Tensor.rank (t : Tensor) : Nat := bitsOf t.desc 13 12 + 1
def Tensor.tiled (t : Tensor) : Bool := bitsOf t.desc 15 14 = 1
def Tensor.writable (t : Tensor) : Bool := t.desc.testBit 16

/-- The entry in 64 bytes. -/
def tensorOf (b : List Byte) : Tensor :=
  let w (o n : Nat) : Nat := ofBytes ((b.drop o).take n)
  { desc := w 0 8, base := w 8 8
    ext := (List.range 4).map (fun d => w (0x10 + 4 * d) 4)
    str := (List.range 4).map (fun d => w (0x20 + 4 * d) 4)
    til := (List.range 4).map (fun d => w (0x30 + d) 1)
    bufsz := w 0x34 4, rsvd := w 0x38 8 }

/-- An entry that is not malformed (R150). -/
def Tensor.ok (t : Tensor) : Bool :=
  let high (l : List Nat) (v : Nat) : Bool := (l.drop t.rank).all (fun x => x = v)
  t.desc.testBit 0 && t.space ≠ 3 && bitsOf t.desc 7 4 = 0 && t.esz ≤ 8 && bitsOf t.desc 15 14 ≤ 1
    && bitsOf t.desc 63 17 = 0 && t.rsvd = 0
    && t.ext.all (fun x => x ≠ 0) && high t.ext 1 && high t.str 0 && high t.til 0
    && (if t.tiled then t.str.all (fun x => x = 0) else t.til.all (fun x => x = 0))
    && (if t.space = 0 then t.bufsz = 0 && !t.phased
        else !t.tiled && t.base < 2 ^ 22 && t.bufsz ≠ 0 && t.bufsz % 256 = 0)

/-- The entry of a tensor id, read as committed data at TENSBASE (R148, R150), or as `cp.tdef`
defined it in this phase (R229). The layout unit reads the table in the device's name: R is checked, U is not. -/
def tensorEntry (tid : Nat) (s : State) : Res (Tensor × State) := do
  let va := s.c.a.tensbase + BitVec.ofNat 64 (64 * tid)
  match look s.c.tdefs tid with
  | some b => .ok (tensorOf b, s)
  | none =>
  if spaceOf va ≠ 0 || nodeOf va ≠ 0 then trapWith .address
  else
    let (pa, t) ← paOf 0 .read va (s.withC { s.c with id := { s.c.id with sup := true } })
    .ok (tensorOf (getBytes t.pkg.mem pa 64), { t with c := s.c })

/-- The bytes that a tile-table leaf maps, as a power of two (R147). -/
def tileLog (pte : Nat) : Nat := match bitsOf pte 7 6 with | 0 => 16 | 1 => 21 | 2 => 30 | _ => 34

/-- Each coordinate lies in its extent (R151). -/
def Tensor.inBounds (t : Tensor) (c : List Nat) : Bool :=
  (List.range t.rank).all (fun d => c.getD d 0 < t.ext.getD d 0)

/-- The linear address of coordinates (R151). -/
def Tensor.linear (t : Tensor) (c : List Nat) : Nat :=
  (t.base + ((List.range t.rank).map (fun d => c.getD d 0 * t.str.getD d 0)).sum) % 2 ^ 64

/-- The tile index and the byte offset in the tile (R151). -/
def Tensor.tileIndex (t : Tensor) (c : List Nat) : Nat :=
  ((List.range t.rank).foldl (fun (acc : Nat × Nat) d =>
    (acc.1 + c.getD d 0 / 2 ^ t.til.getD d 0 * acc.2, acc.2 * ceilDiv (t.ext.getD d 0) (2 ^ t.til.getD d 0))) (0, 1)).1
def Tensor.tileOffset (t : Tensor) (c : List Nat) : Nat :=
  ((List.range t.rank).foldl (fun (acc : Nat × Nat) d =>
    (acc.1 + c.getD d 0 % 2 ^ t.til.getD d 0 * acc.2, acc.2 * 2 ^ t.til.getD d 0)) (0, 1)).1 * 2 ^ t.esz

/-- Where an element lies: a global address to be translated, a physical address of a tiled tensor, or an
offset of a typed buffer (R151). -/
inductive Place where
  | va (x : W64)
  | pa (x : Nat) (pte : Nat) (va : W64)
  | as (x : Nat)
  | cb (x : Nat)
deriving DecidableEq, Repr

/-- A tile is larger than the page its PTE gives it, which traps TENSOR before the PTE is checked as a leaf (R151). -/
def Tensor.tooBig (t : Tensor) (pte : Nat) : Bool := 2 ^ tileLog pte < 2 ^ (t.til.sum + t.esz)

/-- The tile PTE at an index of the tile table, held in the TLBs under the tensor id (R151): a load of 8 bytes, checked as
R160 checks one. An engine's snapshot of an entry takes no PTE that was loaded under another BASE (R213). The address that a
tile PTE with V = 0, or a severed region, is reported with is that of the table entry, since the element has no virtual
one (log 88). -/
def tilePte (t : Tensor) (tid idx : Nat) (snap : Bool) (k : Access) (s : State) : Res (Nat × W64 × State) := do
  let va := BitVec.ofNat 64 (t.base + 8 * idx)
  let asid := asidOf s.c.a
  match s.pkg.tlb.find? (fun e => e.asid = asid && e.space = 5 && e.tid = tid && e.page = idx && (!snap || e.base = t.base)) with
  | some e => .ok (e.pte.toNat, va, s)
  | none =>
    if !addressOk false va s then trapWith .address
    else if va.toNat % 8 ≠ 0 then trapWith .misalign
    else
      let (pa, s) ← paOf (spaceOf va) .read va s
      let pte := getNum s.pkg.mem pa 8
      if t.tooBig pte then trapWith .tensor
      else if !pteValid pte then
        if s.c.unmapped.contains va then trapAt .unmapped va
        else .error (.freeze ⟨va, spaceOf va, k.code, some pa, 4⟩)
      else
        let s := s.withPkg { s.pkg with
          tlb := ⟨asid, 5, tid, idx, 0, BitVec.ofNat 64 pte, t.base⟩ :: s.pkg.tlb }
        .ok (pte, va, s)

/-- The layout unit (R151): the place of an element whose coordinates are in bounds; `snap` for an engine's snapshot. -/
def layout (t : Tensor) (tid : Nat) (snap : Bool) (k : Access) (c : List Nat) (s : State) : Res (Place × State) :=
  if t.space = 1 then .ok (.as (t.linear c), s)
  else if t.space = 2 then .ok (.cb (t.linear c), s)
  else if !t.tiled then .ok (.va (BitVec.ofNat 64 (t.linear c)), s)
  else do
    let (pte, va, s) ← tilePte t tid (t.tileIndex c) snap k s
    if t.tooBig pte then trapWith .tensor
    else .ok (.pa (alignDown (pteFrame pte) (2 ^ tileLog pte) + t.tileOffset c) pte va, s)

/-- The coordinates packed in a lane, by rank (R175). -/
def coords (rank : Nat) (x : W32) : List Nat :=
  let n := x.toNat
  match rank with
  | 1 => [n]
  | 2 => [bitsOf n 15 0, bitsOf n 31 16]
  | 3 => [bitsOf n 10 0, bitsOf n 21 11, bitsOf n 31 22]
  | _ => [bitsOf n 7 0, bitsOf n 15 8, bitsOf n 23 16, bitsOf n 31 24]

/-- The leaf of a tiled element permits the access (R151, R160). -/
def placeAllowed (k : Access) (s : State) : Place → Res Unit
  | .pa _ pte _ => need (permits k s.c.id.sup pte) .access
  | .va _ | .as _ | .cb _ => .ok ()

/-- The places of the elements that the lanes name, in lane order, the checks of their tile PTEs made in the order of R160. -/
def lanePlaces (t : Tensor) (tid : Nat) (k : Access) (x : VWord) : List Nat → State → Res (List (Nat × Place) × State) :=
  inParts (fun i s => do
    let (p, s) ← layout t tid false k (coords t.rank (lane x i)) s
    placeAllowed k s p
    .ok ((i, p), s))

/-- An element's place has a legal space and is aligned to its size (R160, R175). -/
def placeAddressOk (s : State) : Place → Bool
  | .va x => addressOk false x s
  | .pa _ _ _ | .as _ | .cb _ => true
def placeAligned (n : Nat) : Place → Bool
  | .va x => x.toNat % n = 0
  | .pa x _ _ | .as x | .cb x => x % n = 0

/-- The physical addresses of global elements, in lane order: translation or the tile leaf's permission, then
POOL_REGION, as parts of one access (R160). -/
def placePas (k : Access) : List (Nat × Place) → State → Res (List (Nat × Nat) × State) :=
  inParts (fun p s =>
    match p.2 with
    | .va x => do
      let (pa, s) ← paOf (spaceOf x) k x s
      .ok ((p.1, pa), s)
    | .pa x pte va => do
      leafCheck k va pte x s
      .ok ((p.1, x), s)
    | .as x | .cb x => .ok ((p.1, x), s))

/-- The offset of an element of a typed buffer. -/
def placeOff : Place → Nat
  | .as x | .cb x => x
  | .va _ | .pa _ _ _ => 0

/-- The region that wholly holds an element of n bytes of a typed buffer (R155). -/
def placeRegion (rs : List Region) (cb : Bool) (n : Nat) (p : Place) : Option Region := regionAt rs cb (placeOff p) n

/-- Where an element of a typed buffer lies in its region's half (R156). -/
def placePhys (rs : List Region) (cb back : Bool) (n : Nat) (p : Place) : Nat :=
  match placeRegion rs cb n p with
  | some r => r.phys back (placeOff p)
  | none => placeOff p

/-- The common checks of vgat and vsct: TENSOR, BOUNDS, ADDRESS, MISALIGN, in this order (R155, R160, R175). -/
def gatherPlaces (k : Access) (wr : Bool) (tid : Nat) (x : VWord) (m : LaneMask) (s : State) :
    Res (Tensor × List (Nat × Place) × State) := do
  let (t, s) ← tensorEntry tid s
  need (t.ok && (t.esz = 1 || t.esz = 2) && (!wr || t.writable)) .tensor
  need ((lanesOf m).all (fun i => t.inBounds (coords t.rank (lane x i)))) .bounds
  let (ps, s) ← lanePlaces t tid k x (lanesOf m) s
  need (t.space = 0 || ps.all (fun p => (placeRegion s.c.regions (t.space = 2) (2 ^ t.esz) p.2).isSome)) .bounds
  need (ps.all (fun p => placeAddressOk s p.2)) .address
  need (ps.all (fun p => placeAligned (2 ^ t.esz) p.2)) .misalign
  .ok (t, ps, s)

/-- `vgat` (R175). -/
def execVgat (g : Fin 8) (_q : Bool) (d : Dst) (a b : Src) (s : State) : Host.Outcome State Fault Refusal :=
  guardedV g s (fun k s => do
    let (x, t, s) ← srcV .uint32 a s
    let (y, u, s) ← srcS b s
    let (e, ps, s) ← gatherPlaces .read false (y.toNat % 1024) x k s
    let n := 2 ^ e.esz
    let old ← oldV d s
    let t := t || u || predTaint s.c (guardRegV g)
    if e.space = 0 then
      let (pas, s) ← placePas .read ps s
      let s ← claimV d s
      let buf := visibleBuf s
      let bytes := pas.flatMap (fun p => (List.range 4).map (fun j =>
        (4 * p.1 + j, if j < n then localByte buf (p.2 + j) else .fwd 0)))
      .ok (issueOp (memOp (.load bytes) (.vector d old) (t || keptTaint .fp32 k d s) t s) s)
    else
      let cb := e.space = 2
      need (!cb || !ps.any (fun p => onTile s.c (placeOff p.2) n)) .tileOpen
      checkDst d s
      behindMatrix s
      soundBuf cb (ps.flatMap (fun p => span (placePhys s.c.regions cb false n p.2) n)) s
      let s ← claimV d s
      let byte (o : Nat) : Byte := racedByte s cb o (getByte (s.buf cb) o)
      let bytes := ps.flatMap (fun p => (List.range 4).map (fun j =>
        (4 * p.1 + j, LByte.fwd (if j < n then byte (placePhys s.c.regions cb false n p.2 + j) else 0))))
      .ok (issueOp (memOp (.load bytes) (.vector d old) (t || keptTaint .fp32 k d s) t s) s))

/-- `vsct` (R175): where two lanes name one element, the higher lane's value remains. -/
def execVsct (g : Fin 8) (d : Reg) (a b : Src) (s : State) : Host.Outcome State Fault Refusal :=
  guardedV g s (fun k s => do
    let (x, _, s) ← srcV .uint32 a s
    let (y, _, s) ← srcS b s
    let (v, _) ← srcVReg d s
    let (e, ps, s) ← gatherPlaces .write true (y.toNat % 1024) x k s
    let n := 2 ^ e.esz
    let cells (pas : List (Nat × Nat)) : Cells := pas.flatMap (fun p => cellsAt p.2 (bytesOf n (lane v p.1).toNat))
    if e.space = 0 then
      let (pas, s) ← placePas .write ps s
      bufferStore (cells pas) s
    else
      let cb := e.space = 2
      need (!cb || !ps.any (fun p => onTile s.c (placeOff p.2) n)) .tileOpen
      behindMatrix s
      let w := cells (ps.map (fun p => (p.1, placePhys s.c.regions cb true n p.2)))
      behindSource cb w s
      .ok (sched (.buf cb (w.map (fun c => (c.1, racedByte s cb c.1 c.2)))) 1 s))

/-- `vpf` changes no architectural state (R176). -/
def execVpf (_g : Fin 8) (_k : Bool) (_a _b : Src) (s : State) : Host.Outcome State Fault Refusal := always s .ok

/-! ## Atomics -/

/-- The operation code of an atomic in a packet (R287). -/
def atomCode : AtomOp → Nat
  | .add => 0 | .min => 1 | .max => 2 | .and => 3 | .or => 4 | .xor => 5 | .xchg => 6 | .cas => 7

/-- An atomic issues (R203): its checks in the order of R160, the phase emitted, and the operation outstanding
until its home slice performs it. -/
def atomic (op : AtomOp) (o : AOrd) (sc : AScope) (d : Dst) (a b : Src) (e : Option Reg) (s : State) : Res State := do
  let (x, y, t, s) ← srcSS a b s
  let (ev, u) ← match e with | some r => srcReg r s | none => .ok (0, false)
  let t := t || u
  if !addressOk true x s then trapWith .address
  else if x.toNat % 8 ≠ 0 then trapWith .misalign
  else
    let mk (kind : MKind) (s : State) : MemOp :=
      { memOp kind (.scalar d) t t s with
        acq := o = .acq || o = .acqrel
        rel := o = .rel || o = .acqrel
        scope := sc }
    if spaceOf x = 1 then
      let node := nodeOf x
      let off := x.toNat % 2 ^ 48
      checkDst d s
      remoteRoom node 32 t (o = .rel || o = .acqrel) (wideScope sc) s
      let s ← claimS d s
      let data := bytesOf 8 y.toNat ++ (if op = .cas then bytesOf 8 ev.toNat else [])
      .ok (emit (issueRemote 2 node off (BitVec.ofNat 64 (atomCode op)) data (mk (.remoteAtom node off op y ev) s) s))
    else
      let (pa, s) ← paOf (spaceOf x) .both x s
      let s ← claimS d s
      .ok (issueOp (mk (.atom op pa y ev) s) (emit s))

/-- `atom.add` (R203). -/
def execAtomAdd (o : AOrd) (sc : AScope) (d : Dst) (a b : Src) (s : State) : Host.Outcome State Fault Refusal :=
  always s (atomic .add o sc d a b none)

/-- `atom.min` (R203). -/
def execAtomMin (o : AOrd) (sc : AScope) (d : Dst) (a b : Src) (s : State) : Host.Outcome State Fault Refusal :=
  always s (atomic .min o sc d a b none)

/-- `atom.max` (R203). -/
def execAtomMax (o : AOrd) (sc : AScope) (d : Dst) (a b : Src) (s : State) : Host.Outcome State Fault Refusal :=
  always s (atomic .max o sc d a b none)

/-- `atom.and` (R203). -/
def execAtomAnd (o : AOrd) (sc : AScope) (d : Dst) (a b : Src) (s : State) : Host.Outcome State Fault Refusal :=
  always s (atomic .and o sc d a b none)

/-- `atom.or` (R203). -/
def execAtomOr (o : AOrd) (sc : AScope) (d : Dst) (a b : Src) (s : State) : Host.Outcome State Fault Refusal :=
  always s (atomic .or o sc d a b none)

/-- `atom.xor` (R203). -/
def execAtomXor (o : AOrd) (sc : AScope) (d : Dst) (a b : Src) (s : State) : Host.Outcome State Fault Refusal :=
  always s (atomic .xor o sc d a b none)

/-- `atom.xchg` (R203). -/
def execAtomXchg (o : AOrd) (sc : AScope) (d : Dst) (a b : Src) (s : State) : Host.Outcome State Fault Refusal :=
  always s (atomic .xchg o sc d a b none)

/-- `atom.cas` (R203). -/
def execAtomCas (o : AOrd) (sc : AScope) (d : Reg) (a b : Src) (s : State) : Host.Outcome State Fault Refusal :=
  always s (atomic .cas o sc (.reg d) a b (some d))

end Sys2Proof.Machine
end

