-- ==== Sys2Proof/Machine/Tasks.lean ====
section
/-! DEFINITION. Task records and environments, the dispatchers' queues, readiness and placement, and how a
task starts (R154, R384 to R394, R406, R407). -/

namespace Sys2Proof.Machine

/-! ## Environments and records -/

/-- Doubleword i of an environment record, read without translation (R385): PTROOT, PTPOOL, PTHOST,
PMROOT, TENSBASE, PMSIZE, ASID, QUOTA, PHBUDGET, TRVEC, SAVEPOOL, SAVEN. -/
def envReg (p : Pkg) (env i : Nat) : W64 := BitVec.ofNat 64 (getNum p.mem (env + 8 * i) 8)

/-- Why the dispatcher cannot read at an address: a cause, or a fault that the MMP serves (R161, R384). -/
abbrev DispErr := Cause ⊕ FaultRec

/-- How an address of device space translates under a root register, through the TLBs where an ASID is given: a readable
page, or what stands in the way (R384, R388, log 13). -/
def readPa (p : Pkg) (asid : Option (BitVec 12)) (sup : Bool) (root va : W64) : Except DispErr Nat :=
  let off := va.toNat % 2 ^ 48
  if spaceOf va ≠ 0 || nodeOf va ≠ 0 then .error (.inl .unmapped)
  else
    let found : WalkEnd := match asid.bind (fun a => tlbFind p.tlb a 0 off) with
      | some e => .leaf e.pte.toNat e.log
      | none => walkRoot p.mem root off
    match found with
    | .leaf pte log =>
      let pa := leafPa pte log off
      if !permits .read sup pte then .error (.inl .access) else if !paExists pa then .error (.inl .unmapped) else .ok pa
    | .missing pa lv => .error (.inr ⟨va, 0, 0, pa, lv⟩)

/-- The dispatcher's own reads: through an environment's tables, without the TLBs. -/
def dispPa (p : Pkg) (root va : W64) : Except DispErr Nat := readPa p none true root va

/-- The cause of a read that cannot be made. -/
def dispCause : DispErr → Cause
  | .inl c => c
  | .inr _ => .unmapped

/-- The fault of a read that the MMP has still to serve (R384, R388). -/
def askedOf {α : Type} (p : Pkg) : Except DispErr α → Option FaultRec
  | .error (.inr f) => if p.unbacked.contains f then none else some f
  | .error (.inl _) | .ok _ => none

/-- The fields of the 64 bytes of a task record (R384). -/
def recNum (b : List Byte) (o n : Nat) : Nat := ofBytes ((b.drop o).take n)

/-- A record is malformed (R384); `user` says that a user-mode context spawned it. -/
def malformed (user : Bool) (b : List Byte) : Bool :=
  let ctl := recNum b 0x24 1
  let fl := recNum b 0x25 1
  let ndep := bitsOf ctl 7 6
  let dbad (i : Nat) : Bool :=
    let a := recNum b (0x28 + 8 * i) 8
    a / 2 ^ 48 ≠ 0 || a % 4 ≠ 0
  fl / 64 ≠ 0 || recNum b 0x26 2 / 2 ^ 12 ≠ 0 || 4 < bitsOf ctl 5 3 || 2 < ndep || recNum b 0 8 % 4 ≠ 0
    || (List.range ndep).any dbad || (fl.testBit 0 && fl.testBit 4) || (user && fl.testBit 5)

/-- The task a well-formed record gives; its dependence addresses are translated by R388. -/
def taskOf (b : List Byte) (env : Nat) (src : TaskSrc) (deps : List (Nat × W32)) : Task :=
  let ctl := recNum b 0x24 1
  let fl := recNum b 0x25 1
  { entry := BitVec.ofNat 64 (recNum b 0 8)
    affinity := BitVec.ofNat 64 (recNum b 8 8)
    args := BitVec.ofNat 64 (recNum b 0x10 8)
    start := BitVec.ofNat 64 (recNum b 0x18 8)
    gids := ((b.drop 0x20).take 4).take (bitsOf ctl 5 3)
    prio := BitVec.ofNat 3 ctl
    twin := fl.testBit 0
    prt := fl.testBit 1
    timed := fl.testBit 2
    strm := fl.testBit 3
    link := fl.testBit 4
    sup := fl.testBit 5
    stream := BitVec.ofNat 12 (recNum b 0x26 2)
    deps := deps
    env := env
    src := src
    ready := none
    req := [] }

/-- The dependence words of a record by physical address, or what fails it (R388). -/
def depsOf (p : Pkg) (root : W64) (b : List Byte) : Except DispErr (List (Nat × W32)) :=
  let ndep := bitsOf (recNum b 0x24 1) 7 6
  (List.range ndep).mapM (fun i => do
    let pa ← dispPa p root (BitVec.ofNat 64 (recNum b (0x28 + 8 * i) 8))
    .ok (pa, BitVec.ofNat 32 (recNum b (0x38 + 4 * i) 4)))

/-! ## Readiness -/

/-- The dispatcher of a die. -/
def State.disp (s : State) (die : Fin 2) : Dispatcher := s.pkg.disp[die]
def State.withDisp (s : State) (die : Fin 2) (d : Dispatcher) : State :=
  s.withPkg { s.pkg with disp := s.pkg.disp.set die d }

/-- A task joins a dispatcher's queue and is tested (R388, R389). -/
def enqueue (die : Fin 2) (t : Task) (s : State) : State :=
  let d := s.disp die
  s.withDisp die { d with queue := d.queue ++ [testReady s.pkg t] }

/-- An abort record for a record that is not queued (R384). -/
def refuseRecord (cause : Cause) (core : BitVec 8) (addr entry : W64) (s : State) : State :=
  writeAbort (abortRecord 0 cause core 0 addr entry) s

/-- How a record is read: through the environment of a launch slot, or a spawner's translation (R387, R412). -/
abbrev Reader := Pkg → W64 → Except DispErr Nat

/-- One record is read and queued, or an abort record is written for it (R384, R388). -/
def takeRecord (die : Fin 2) (env : Nat) (src : TaskSrc) (user : Bool) (core : BitVec 8) (rd : Reader) (va : W64) (s : State) : State :=
  match rd s.pkg va with
  | .error c => refuseRecord (dispCause c) core va 0 s
  | .ok pa =>
    let b := getBytes s.pkg.mem pa 64
    let entry := BitVec.ofNat 64 (recNum b 0 8)
    if malformed user b then refuseRecord .illegal core (freeAddr s) entry s
    else match depsOf s.pkg (envReg s.pkg env 0) b with
      | .error c => refuseRecord (dispCause c) core (freeAddr s) entry s
      | .ok deps => enqueue die (taskOf b env src deps) s

/-- The n records from an address, in order (R387, R412). -/
def takeRecords (die : Fin 2) (env : Nat) (src : TaskSrc) (user : Bool) (core : BitVec 8) (rd : Reader) (va : W64) :
    Nat → State → State
  | 0, s => s.withPkg { s.pkg with unbacked := s.pkg.unbacked.filter (fun f => f.space = 1) }
  | n + 1, s => takeRecords die env src user core rd (va + 64) n (takeRecord die env src user core rd va s)

/-- The first fault of n records from an address, or of a dependence address of theirs, that the MMP has still to serve
(R384, R388). -/
def recordFault (env : Nat) (user : Bool) (rd : Reader) (va : W64) : Nat → Pkg → Option FaultRec
  | 0, _ => none
  | n + 1, p =>
    let deps := match rd p va with
      | .error _ => none
      | .ok pa =>
        let b := getBytes p.mem pa 64
        if malformed user b then none else askedOf p (depsOf p (envReg p env 0) b)
    askedOf p (rd p va) <|> deps <|> recordFault env user rd (va + 64) n p

/-! ## Launch words (R387) -/

/-- The physical address of launch word n: LWADDR is a device virtual address under the slot's environment. -/
def launchPa (p : Pkg) (d : Dispatcher) (n : Fin 16) : Option Nat :=
  let a := d.lwaddr[n]
  if !a.getLsbD 0 then none
  else match dispPa p (envReg p (d.lwenv[n]).toNat 0) (a &&& ~~~7) with
    | .ok pa => some pa
    | .error _ => none

/-- What launch word n of a dispatcher holds: the number and the place of its records, where it is armed. -/
def launchWork (p : Pkg) (d : Dispatcher) (n : Fin 16) : Option (Nat × W64) :=
  (launchPa p d n).map (fun pa =>
    let w := getNum p.mem pa 8
    (bitsOf w 63 48, BitVec.ofNat 64 (w % 2 ^ 48 / 64 * 64)))

/-- The records of a launch slot are read through the PTROOT of its environment. -/
def launchReader (env : Nat) : Reader := fun p va => dispPa p (envReg p env 0) va

/-- The dispatcher looks at launch word n (R387): a write that has made COUNT nonzero is a launch; a word that was not zero, or
whose launch is not taken up yet, is left. -/
def watchLaunch (die : Fin 2) (n : Fin 16) (s : State) : State :=
  let d := s.disp die
  match launchWork s.pkg d n, d.work[n] with
  | some w, none =>
    s.withDisp die { d with seen := d.seen.set n (w.1 ≠ 0), work := d.work.set n (if w.1 ≠ 0 && !d.seen[n] then some w else none) }
  | _, _ => s

/-- Both dispatchers look at their launch words. -/
def watchLaunches (s : State) : State := (List.finRange 16).foldl (fun s n => watchLaunch 1 n (watchLaunch 0 n s)) s

/-- A launch slot is armed anew: what its word holds was not written for it (R387). -/
def rearm (die : Fin 2) (n : Fin 16) (s : State) : State :=
  let d := s.disp die
  let on : Bool := match launchWork s.pkg d n with | some w => w.1 ≠ 0 | none => false
  s.withDisp die { d with seen := d.seen.set n on, work := d.work.set n none }

/-- The fault that the records of launch word n meet (R384). -/
def launchFault (p : Pkg) (d : Dispatcher) (n : Fin 16) : Option FaultRec :=
  let env := (d.lwenv[n]).toNat
  (d.work[n]).bind (fun w => recordFault env false (launchReader env) w.2 w.1 p)

/-- A launch is taken up: its records are queued in order and the word is written to zero. It waits while the queue has no
room for them, and while the MMP serves their pages (R384, R387, R389). -/
def takeLaunch (die : Fin 2) (n : Fin 16) (s : State) : State :=
  let d := s.disp die
  match launchPa s.pkg d n, d.work[n] with
  | some pa, some (count, va) =>
    if 65536 < d.queue.length + count || (launchFault s.pkg d n).isSome then s
    else
      let env := (d.lwenv[n]).toNat
      let s := s.withDisp die { d with seen := d.seen.set n false, work := d.work.set n none }
      writeMem (cellsAt pa (bytesOf 8 0)) (takeRecords die env (.slot n) false 0xFF (launchReader env) va count s)
  | _, _ => s

/-! ## Priorities (R389) -/

/-- The effective priority after waiting since a device time. -/
def effPrio (prio : BitVec 3) (since now : W64) : Nat := min 7 (prio.toNat + (now - since).toNat / 1000000)

/-- A source's place in the round robin: launch slots 0 to 15, then cores by id (R389). -/
def srcIndex : TaskSrc → Nat
  | .slot n => n.val
  | .core c => 16 + c.toNat

/-- The round-robin distance of a source from a level's position, the source that it serves first. -/
def rrDist (pos : Nat) (src : TaskSrc) : Nat := (srcIndex src + 272 - pos % 272) % 272

/-! ## Regions (R154) -/

/-- The tensor-table entries of an environment that declare regions, and whether one is malformed; an entry
that cannot be read declares none (R154, log 13). -/
def readRegions (p : Pkg) (env : Nat) : List Region × Bool :=
  let root := envReg p env 0
  let base := envReg p env 4 &&& sysregMask 0x026
  (List.range 1024).foldl (fun (acc : List Region × Bool) i =>
    match dispPa p root (base + BitVec.ofNat 64 (64 * i)) with
    | .error _ => acc
    | .ok pa =>
      let desc := getNum p.mem pa 8
      if desc % 2 = 0 || bitsOf desc 2 1 = 0 || bitsOf desc 2 1 = 3 then acc
      else
        let t := tensorOf (getBytes p.mem pa 64)
        if !t.ok then (acc.1, true)
        else
          let r : Region := ⟨i, t.space = 2, t.base, t.bufsz, t.phased, false⟩
          if acc.1.any (fun q => q.cb = r.cb && q.base = r.base && q.size = r.size && q.phased = r.phased) then acc
          else (acc.1 ++ [r], acc.2)) ([], false)

/-- The physical bytes of a buffer that a region occupies. -/
def Region.extent (r : Region) : Nat × Nat := (r.base, if r.phased then 2 * r.size else r.size)

/-- Two regions share a byte. -/
def regionsMeet (a b : Region) : Bool :=
  a.cb = b.cb && a.extent.1 < b.extent.1 + b.extent.2 && b.extent.1 < a.extent.1 + a.extent.2

/-- No two regions of a list share a byte. -/
def disjointAll : List Region → Bool
  | [] => true
  | r :: l => l.all (fun q => !regionsMeet r q) && disjointAll l

/-- The first byte of the stream area of every core's AS (R406). -/
def streamAreaBase (p : Pkg) : Nat := 3 * 2 ^ 20 - fieldOf p.sctcfg 20 16 * 2 ^ 16

/-- The regions break no limit of R154 and R406: at most 16 AS regions (15 with a stream) and 8 CB regions,
none overlapping, all within their buffer and below the stream area. -/
def regionsOk (p : Pkg) (strm : Bool) (rs : List Region) : Bool :=
  (rs.filter (fun r => !r.cb)).length ≤ (if strm then 15 else 16) && (rs.filter (fun r => r.cb)).length ≤ 8
    && disjointAll rs
    && rs.all (fun r => r.extent.1 + r.extent.2 ≤ (if r.cb then bufSize true else streamAreaBase p))

/-! ## Candidate cores (R390, R391) -/

/-- The resident contexts of a core: slot, priority, regions, lease, and whether pre-emption is asked. -/
structure Resident where
  slot1 : Bool
  iprio : BitVec 3
  regions : List Region
  lease : Bool
  preempt : Bool
deriving DecidableEq, Repr

def residentOf (slot1 : Bool) (c : Ctx) : List Resident :=
  if c.live then [⟨slot1, c.a.iprio, c.regions, c.id.lease, c.preempt⟩] else []

/-- The contexts resident on a core, slot 0 first. -/
def residents (s : State) (core : BitVec 8) : List Resident :=
  if core = Config.coreId then
    if s.slot1 then residentOf false s.c2 ++ residentOf true s.c else residentOf false s.c ++ residentOf true s.c2
  else
    let l := s.pkg.others.filter (fun o => o.core = core)
    let of (b : Bool) := (l.filter (fun o => o.slot = b)).map (fun o => (⟨b, o.iprio, o.regions, o.task.link, o.preempt⟩ : Resident))
    of false ++ of true

/-- A core is halted (R410). -/
def halted (p : Pkg) (core : BitVec 8) : Bool :=
  let k := core.toNat / 64
  (p.haltmask.toList.getD k 0).getLsbD (core.toNat % 64)

/-- The cores a task may go to by its affinity page: the 32 near the page's stack, else the dispatcher's whole
die (R12, R390). -/
def nearCores (p : Pkg) (die : Fin 2) (root affinity : W64) : List (BitVec 8) :=
  let all := span (128 * die.val) 128
  let l :=
    if spaceOf affinity ≠ 0 || nodeOf affinity ≠ 0 then all
    else match walkRoot p.mem root (affinity.toNat % 2 ^ 48) with
      | .leaf pte log =>
        let pa := leafPa pte log (affinity.toNat % 2 ^ 48)
        if pa / 2 ^ 48 = 0 then span (32 * bitsOf pa 38 36) 32 else all
      | .missing _ _ => all
  l.map (BitVec.ofNat 8)

/-- The die whose dispatcher places a task: that of the page's stack (R390). -/
def dieOf (p : Pkg) (die : Fin 2) (t : Task) : Fin 2 :=
  match nearCores p die (envReg p t.env 0) t.affinity with
  | c :: _ => if c.toNat < 128 then 0 else 1
  | [] => die

/-- A core can take a task with some regions (R390). -/
def coreFree (s : State) (link cullet : Bool) (rs : List Region) (core : BitVec 8) : Bool :=
  let l := residents s core
  !s.pkg.retired.contains core && !halted s.pkg core && (cullet || !s.pkg.cullet.contains core) && l.length < 2
    && l.all (fun r => r.regions.all (fun a => rs.all (fun b => !regionsMeet a b)))
    && !(link && l.any (fun r => r.lease))

/-- The candidate with the fewest resident contexts, the lowest id among equals (R390). -/
def bestCore (s : State) (l : List (BitVec 8)) : Option (BitVec 8) :=
  l.foldl (fun b c => match b with
    | none => some c
    | some d => if (residents s c).length < (residents s d).length then some c else some d) none

/-- The lowest free context slot of a core. -/
def freeSlot (s : State) (core : BitVec 8) : Bool := (residents s core).any (fun r => !r.slot1)

/-- The lowest save area of an environment that is not taken (R385, R399). -/
def freeArea (p : Pkg) (env : Nat) : Option Nat :=
  let pool := (envReg p env 10).toNat
  let n := (envReg p env 11).toNat
  let used := (p.areas.filter (fun a => a.1 = env)).map Prod.snd
  if used.length < n then
    ((List.range (used.length + 1)).map (fun i => pool + i * Config.saveSize)).find? (fun a => !used.contains a)
  else none

/-! ## Starting a task (R386) -/

/-- The registers of a task as it starts (R76, R80, R386). -/
def startArch (p : Pkg) (t : Task) (strinfo : W64) (bound : Bool) : Arch :=
  let e (i : Nat) (n : BitVec 12) : W64 := envReg p t.env i &&& sysregMask n
  { Arch.zero with
    pc := t.entry
    s := ((Arch.zero.s.set 0 t.args).set 1 (if bound then BitVec.ofNat 64 (fieldOf strinfo 21 0) else 0)).set 2
      (if bound then BitVec.ofNat 64 (fieldOf strinfo 47 32 * 256) else 0)
    lanes := seedLanes 0
    ptroot := e 0 0x022
    ptpool := e 1 0x023
    pthost := e 2 0x024
    pmroot := e 3 0x025
    tensbase := e 4 0x026
    pmsize := e 5 0x027
    asid := e 6 0x021
    quota := e 7 0x020
    phbudget := e 8 0x001
    trvec := e 9 0x007
    iprio := t.prio }

/-- STRINFO of a stream (R406, R410). -/
def strinfoOf (st : Stream) : W64 := BitVec.ofNat 64 (st.half * 2 ^ 32 + st.off)

/-- The stream of a task that is bound at placement: its stream is RESIDENT (R407). -/
def boundStream (p : Pkg) (t : Task) : Option Stream :=
  if t.strm then (look p.streams t.stream.toNat).filter (fun e => e.state = .resident) else none

/-- The region of a bound stream (R406). -/
def streamRegion (id : BitVec 12) (st : Stream) : Region := ⟨1024 + id.toNat, false, st.off, 256 * st.half, true, st.flip⟩

/-- The identity of a task's context as it starts (R384, R386). -/
def startId (p : Pkg) (t : Task) (area : Nat) : Ident :=
  let (rs, bad) := readRegions p t.env
  { Ident.none with
    ctxid := BitVec.ofNat 32 p.nextCtx
    task := some t
    prio := t.prio
    gids := t.gids
    prt := t.prt
    link := t.link
    sup := t.sup
    strm := t.strm
    stream := t.stream
    entry := t.entry
    savebase := BitVec.ofNat 64 area
    ctxenv := BitVec.ofNat 64 t.env
    strinfo := match boundStream p t with | some st => strinfoOf st | none => 0
    lease := t.link
    unfit := bad || !regionsOk p t.strm rs }

/-- The regions with which a task starts: those of its tensor table, where they break no limit of R154, and its stream's. -/
def startRegions (p : Pkg) (t : Task) : List Region :=
  let (rs, bad) := readRegions p t.env
  (if !bad && regionsOk p t.strm rs then rs else [])
    ++ (match boundStream p t with | some st => [streamRegion t.stream st] | none => [])

/-- The context of a task placed on the modelled core (R386): its regions are cleared, and where its tensor
table breaks R154 it traps TENSOR at its entry group and does not start. -/
def startCtx (p : Pkg) (t : Task) (area : Nat) : Ctx :=
  let id := startId p t area
  let a := startArch p t id.strinfo (boundStream p t).isSome
  { Ctx.empty with
    live := true
    id := id
    a := a
    ck := a
    regions := startRegions p t
    roBound := p.hist.length
    clearing := true }

/-- The bytes of a region are cleared (R157). -/
def clearRegion (k : Core) (r : Region) : Core :=
  let k := k.cleanse r.cb (fun a => r.extent.1 ≤ a && a < r.extent.1 + r.extent.2)
  if r.cb then { k with cb := zeroRange k.cb r.extent.1 r.extent.2 }
  else { k with as := zeroRange k.as r.extent.1 r.extent.2 }

/-- A context slot of the modelled core is filled. -/
def fillSlot (slot1 : Bool) (c : Ctx) (s : State) : State :=
  if slot1 = s.slot1 then { s with c := c } else { s with c2 := c }

/-- The stream of a placed task becomes ACTIVE (R407). -/
def activate (t : Task) (ctx : W32) (p : Pkg) : Table Stream :=
  match boundStream p t with
  | some st => put p.streams t.stream.toNat { st with state := .active, owner := ctx }
  | none => p.streams

/-- A task starts in a slot of a core (R386, R393). -/
def startTask (t : Task) (core : BitVec 8) (slot1 : Bool) (area : Nat) (s : State) : State :=
  let p := s.pkg
  let ctxid := BitVec.ofNat 32 p.nextCtx
  let s := s.withPkg { p with
    nextCtx := p.nextCtx + 1
    areas := (t.env, area) :: p.areas
    streams := activate t ctxid p }
  if core = Config.coreId then
    let c := startCtx p t area
    let k := (c.regions.filter (fun r => r.tid < 1024)).foldl clearRegion s.core
    fillSlot slot1 { c with backAs := backCells c.regions false k.as, backCb := backCells c.regions true k.cb } (s.withCore k)
  else
    s.withPkg { s.pkg with
      others := s.pkg.others ++ [⟨core, slot1, ctxid, t.prio, false, startRegions p t, t, some area, startId p t area, none⟩] }

end Sys2Proof.Machine
end

