-- ==== Sys2Proof/Machine/Commit.lean ====
section
/-! DEFINITION. The commit of a phase: what is waited for, how the buffered set is performed, and what follows
(R181 to R183, R207 to R209, R306, R393, R407, R413). -/

namespace Sys2Proof.Machine

/-! ## Barriers -/

/-- The membership slot that the core took for a group (R207). -/
def memberSlot (k : Core) (gid : BitVec 8) : Option Nat := findIdx (fun m => m = some gid) k.member.toList

/-- A barrier entry; one never written is as the filling of its group leaves it (R207). -/
def barAt (k : Core) (i : Nat) : BarEnt := (look k.bars i).getD ⟨0, 0, 0⟩

/-- The count reaches the target: the generation advances and the count falls by N (R209). -/
def barSettle (b : BarEnt) : BarEnt :=
  if b.n ≤ b.count && b.n ≠ 0 then { b with gen := b.gen + 1, count := b.count - b.n } else b

/-- An arrival at the core's entry for (g, b) (R209). -/
def arriveAt (gid b : BitVec 8) (k : Core) : Core :=
  match memberSlot k gid with
  | none => k
  | some m =>
    let i := 256 * m + b.toNat
    let e := barAt k i
    { k with bars := put k.bars i (barSettle { e with count := e.count + 1 }) }

/-- An arrival delivered to this package: at the entries of the member cores, or, while the group table has no
entry for g, into the early-arrival queue (R207). -/
def deliverArrival (gid b : BitVec 8) (s : State) : State :=
  match look s.pkg.groups gid.toNat with
  | none =>
    if s.pkg.early.length < 1024 then s.withPkg { s.pkg with early := s.pkg.early ++ [(gid, b)] } else s
  | some _ => s.withCore (arriveAt gid b s.core)

/-! ## Performing the buffered set -/

/-- What this chapter's and the system chapter's buffered operations do when they are performed. -/
def performArrival (gid b : BitVec 8) (s : State) : State :=
  let remote := match look s.pkg.groups gid.toNat with | some r => r.remote | none => []
  let s := remote.foldl (fun s r => collPacket r.1 (BitVec.ofNat 64 (gid.toNat + 256 * b.toNat)) [] s) s
  deliverArrival gid b s

def performBarInit (gid b : BitVec 8) (n : BitVec 16) (s : State) : State :=
  match memberSlot s.core gid with
  | none => s
  | some m =>
    let i := 256 * m + b.toNat
    s.withCore { s.core with bars := put s.core.bars i (barSettle { barAt s.core i with n := n }) }

/-- The records of a spawn are read through the spawner's translation (R149, R412). -/
def spawnReader (c : Ctx) : Reader := fun p va => readPa p (some (asidOf c.a)) c.id.sup c.a.ptroot va

/-- The fault that the records of a spawn meet (R384). -/
def spawnFault (c : Ctx) (p : Pkg) (va : W64) (n : Nat) : Option FaultRec :=
  recordFault c.id.ctxenv.toNat (!c.id.sup) (spawnReader c) va n p

/-- The records of a spawn are read as committed data and queued at the core's dispatcher (R412); the spawn waits
for room in the queue (R389). -/
def performSpawn (va : W64) (n : Nat) (s : State) : State :=
  takeRecords 0 s.c.id.ctxenv.toNat (.core Config.coreId) (!s.c.id.sup) Config.coreId (spawnReader s.c) va n s

/-- `sct.pin` at its commit: RESERVED becomes ACTIVE, the region is taken and cleared, STRINFO shows it (R407). -/
def performSctPin (id : BitVec 12) (s : State) : State :=
  match look s.pkg.streams id.toNat with
  | none => s
  | some st =>
    let r := streamRegion id st
    let s := s.withPkg { s.pkg with streams := put s.pkg.streams id.toNat { st with state := .active } }
    let s := s.withCore (clearRegion s.core r)
    s.withC { s.c with
      id := { s.c.id with strinfo := strinfoOf st }
      regions := s.c.regions ++ [r] }

/-- The bytes of an eviction copy at the physical frames of HOME, 64 KiB each (R406). -/
def homeCells (st : Stream) (bytes : List Byte) : Cells :=
  (bytes.mapIdx (fun i b => (st.home.getD (i / 2 ^ 16) 0 + i % 2 ^ 16, b)))

/-- `sct.rel` at its commit (R407): with W the half that becomes front is written to HOME first; the region is
released. -/
def performSctRel (id : BitVec 12) (wb : Bool) (s : State) : State :=
  match look s.pkg.streams id.toNat, s.c.regions.find? (fun r => r.tid = 1024 + id.toNat) with
  | some st, some r =>
    let s := if wb then writeMem (homeCells st (getBytes s.core.as r.back.1 r.back.2)) s else s
    let s := s.withPkg (unpinFrames st.home { s.pkg with streams := del s.pkg.streams id.toNat })
    s.withC { s.c with
      id := { s.c.id with strinfo := 0 }
      regions := s.c.regions.filter (fun q => q.tid ≠ 1024 + id.toNat) }
  | _, _ => s

/-- A member of a gang as `decpl` leaves it (R398). -/
def decoupled (id : Ident) : Ident := { id with dec := true, gsize := 0, grank := 0 }

/-- `decpl` at its commit: each member goes on as a context of its own, a member of a decoupled gang; the line has been claimed
(R398). -/
def performDecpl (s : State) : State :=
  let s := s.withPkg { s.pkg with
    others := s.pkg.others.map (fun o => if mateOf s o then { o with lead := none, id := decoupled o.id } else o) }
  s.withC { s.c with id := decoupled s.c.id }

/-- GSIZE of a gang form (R410). -/
def gsizeOf : GangForm → BitVec 2
  | .w2 | .t2 => 1
  | .w4 => 2

/-- `fuse` at its commit: the context is the leader of a gang, which forms once it has left its core (R397). -/
def performFuse (f : GangForm) (s : State) : State :=
  s.withC { s.c with id := { s.c.id with gsize := gsizeOf f, grank := 0, twin := f = .t2 } }

/-- The packets of a remote store: one for each run of consecutive bytes (R288, R305). -/
def runsOf : Cells → List (Nat × List Byte)
  | [] => []
  | (a, b) :: r =>
    match runsOf r with
    | (k, l) :: t => if a + 1 = k then (a, b :: l) :: t else (a, [b]) :: (k, l) :: t
    | [] => [(a, [b])]

/-- A store packet. -/
def storePacket (node : BitVec 12) (off : Nat) (d : List Byte) (s : State) : State :=
  inject (request 1 node off (BitVec.ofNat 64 d.length) d s) s

/-- A path packet is still unacknowledged (R303). -/
def unacked (s : State) (x : BitVec 12 × W32) : Bool :=
  let p := pathTo s.pkg.fab x.1
  p.unacked.any (fun p => p.1.seq = x.2) || p.wait.any (fun p => p.seq = x.2)

/-- A connection of a context (R308). -/
def findConn (s : State) (ctxid : W32) (cn : Fin 16) : Option Conn :=
  s.pkg.fab.conns.find? (fun c => c.ctxid = ctxid && c.cn = cn)

/-- The connections with one replaced. -/
def setConn (c : Conn) (s : State) : State :=
  s.withPkg { s.pkg with fab := { s.pkg.fab with
    conns := s.pkg.fab.conns.map (fun d => if d.ctxid = c.ctxid && d.cn = c.cn then c else d) } }

/-- The kind of route and the node of a remote item: what makes a run (R306). -/
def routeOf (s : State) : Buffered → Option (BitVec 12 × Bool)
  | .remote n _ _ | .remoteV n _ _ => some (n, false)
  | .message cn _ op _ _ _ => some (((findConn s s.c.id.ctxid cn).map (·.node)).getD 0, op = none)
  | _ => none

/-- A put or reduce-store joins its connection's messages (R309, R310, R315). -/
def queueMessage (cn : Fin 16) (nt : Bool) (op : Option (Fin 16)) (off : Nat) (src : List Nat) (len idx : Nat) (s : State) :
    State :=
  match findConn s s.c.id.ctxid cn with
  | none => s
  | some c =>
    let data := (src.flatMap (fun a => getBytes s.pkg.mem a 256)).take len
    let m : Message :=
      { seq := c.next, len := len, op := op, get := false, nt := nt, off := off, data := data, index := idx
        phseq := s.c.phseq, sent := none, ver := s.pkg.fab.ver }
    setConn { c with out := c.out ++ [m], next := c.next + 1 } s

/-- The commit record changed. -/
def setCommit (r : CommitRec) (s : State) : State := s.withC { s.c with commit := some r }

/-- One buffered operation is performed (R182, R306). -/
def performOne (b : Buffered) (r : CommitRec) (s : State) : CommitRec × State :=
  match b with
  | .store w => (r, writeMem w s)
  | .remote n o d => (r, storePacket n o d s)
  | .remoteV n _ w => (r, (runsOf w).foldl (fun s x => storePacket n x.1 x.2 s) s)
  | .message cn nt op off src len =>
    ({ r with reds := r.reds + (if op.isSome then 1 else 0) }, queueMessage cn nt op off src len r.reds s)
  | .barInit g b n => (r, performBarInit g b n s)
  | .barArr g b => (r, performArrival g b s)
  | .spawn va n => (r, performSpawn va n s)
  | .sctPin id => (r, performSctPin id s)
  | .sctRel id wb => (r, performSctRel id wb s)
  | .fuse f => (r, performFuse f s)
  | .decpl => (r, performDecpl s)
  | .copy x => (r, s.withCore { s.core with xq := s.core.xq ++ [x] })

/-- A buffered operation waits: a spawn for room in the dispatcher's queue and for the pages of its records (R384, R389), a
store for the migration of its page and for its HBM channels (R164, R433). -/
def waitsQueue (s : State) : Buffered → Bool
  | .spawn va n => 65536 < (s.disp 0).queue.length + n || (spawnFault s.c s.pkg va n).isSome
  | .store w => w.any (fun c => s.pkg.migrating.contains (alignDown c.1 (2 ^ 16))) || hbmHeld s.pkg.hbm (w.map Prod.fst)
  | _ => false

/-- A message of the context waits for the window of its connection, and the run it belongs to with it (R309). -/
def unsent (s : State) : Bool :=
  s.pkg.fab.conns.any (fun c => c.ctxid = s.c.id.ctxid && c.out.any (fun m => !m.get && m.sent.isNone))

/-- A buffered operation waits: one that does not continue the run in flight, for the acknowledgement of that run and of
those that earlier commits left trailing (R192, R306); one of a run whose messages wait; and what `waitsQueue` says. -/
def heldBack (run : Option (BitVec 12 × Bool)) (s : State) (b : Buffered) : Bool :=
  ((run = none || run ≠ routeOf s b) && remoteUnpublished s) || unsent s || waitsQueue s b

/-- The bytes of memory that a put or a reduce-store reads (R315). -/
def sourceBytes : Buffered → List Nat
  | .message _ _ _ _ src len => (List.range len).map (fun i => src.getD (i / 256) 0 + i % 256)
  | _ => []

/-- The poisoned word that a put or a reduce-store would read (R184). -/
def sourcePoison (s : State) (b : Buffered) : Option Nat := (sourceBytes b).find? (poisoned s.pkg)

/-- The buffered set is performed in issue order, as far as it can be; what a message reads of HBM is transferred first (R432).
`run` is the run in flight. -/
def performAll : List Buffered → Option (BitVec 12 × Bool) → CommitRec → State → CommitRec × State
  | [], _, r, s => ({ r with rest := [] }, s)
  | b :: l, run, r, s =>
    if heldBack run s b then ({ r with rest := b :: l }, s)
    else
      let s := fetchHbm (sourceBytes b) s
      if !hbmReady s.pkg.hbm (sourceBytes b) || (sourcePoison s b).isSome then ({ r with rest := b :: l }, s)
      else
        let route := routeOf s b
        let (r, s) := performOne b { r with past := true } s
        performAll l route r (unfetch (sourceBytes b) s)

/-- A barrier arrival is released once the phase's stores are published (R182, R209): the arrivals of the set stand last,
each `bar.init` that follows an arrival at its barrier after it. -/
def arrivalsLast (l : List Buffered) : List Buffered :=
  let (front, back) := l.foldl (fun (acc : List Buffered × List Buffered) b =>
    let last : Bool := match b with
      | .barArr _ _ => true
      | .barInit g n _ => acc.2.contains (.barArr g n)
      | _ => false
    if last then (acc.1, acc.2 ++ [b]) else (acc.1 ++ [b], acc.2)) ([], [])
  front ++ back

/-- A commit at this scope waits for the acknowledgements of its runs, and of those that narrower commits of the context have
left trailing (R182, R193). -/
def waitsAcks : Scope → Bool
  | .torus | .pool => true
  | .core | .grove | .pkg => false

/-! ## Finishing -/

/-- Each phased region of the context swaps its halves (R156). -/
def swapRegions (rs : List Region) : List Region := rs.map (fun r => if r.phased then { r with flip := !r.flip } else r)

/-- The words popped in the phase leave the receive queues (R191). -/
def commitPops (k : Core) : Core :=
  { k with recv := k.recv.map (fun q => { words := q.words.drop q.rd, rd := 0 }) }

/-- The context may be switched out at this commit (R180, R333, R392, R399): its core's emergency area is drained, and no
collective operation of its own has still to raise LR. -/
def maySwitch (s : State) : Bool := s.c.preempt && s.core.emerg.isEmpty && !collOwed s

/-- Cores are marked halted (R413). -/
def setHalt (l : List (BitVec 8)) (s : State) : State :=
  s.withPkg { s.pkg with haltmask := s.pkg.haltmask.mapIdx (fun k h =>
    (l.filter (fun c => c.toNat / 64 = k)).foldl (fun h c => setBit h (c.toNat % 64) true) h) }

/-- The cores of the running context: its own, and its gang's (R397). -/
def gangHere (s : State) : List (BitVec 8) := Config.coreId :: (s.pkg.others.filter (mateOf s)).map (·.core)

/-- The changes that a context's phase made to its map slots stand (R372). -/
def keepMaps (ctx : W32) (k : Core) : Core :=
  { k with maps := k.maps.map (fun m => if m.2.owner = some ctx then (m.1, { m.2 with touched := false }) else m) }

/-- The rest of R181 once the buffered set is published: regions swap, the checkpoint is taken, taint is cleared, the open set
is empty (R233), PHSEQ counts, and the context goes on, is switched out, or ends. -/
def finishCommit (r : CommitRec) (s : State) : State :=
  let c := s.c
  let a := { c.a with sTaint := 0, vTaint := 0, pTaint := 0, mTaint := 0, opens := [], marks := [] }
  let rs := swapRegions c.regions
  let k := keepMaps c.id.ctxid (if c.id.lease then commitPops s.core else s.core)
  let fusing := c.buf.any (fun b => match b with | .fuse _ => true | _ => false)
  let s := { s with
    c := { c with
      a := a
      ck := a
      regions := rs
      backAs := backCells rs false k.as
      backCb := backCells rs true k.cb
      phseq := c.phseq + 1
      emitted := false
      reruns := 0
      clock := 0
      buf := []
      fences := 0
      dirty := []
      tdefs := []
      prevInputs := c.inputs
      inputs := []
      named := []
      compare := none
      twinMiss := false
      commit := none
      saving := r.ending = .goOn && (fusing || maySwitch s) }
    core := k
    pkg := { s.pkg with tlb := s.pkg.tlb.filter (fun e =>
      !(e.asid = c.a.asid.extractLsb' 0 12 && e.space = 5 && c.tdefs.any (fun d => d.1 = e.tid))) } }
  match r.ending with
  | .goOn => s
  | .texit => endContext s
  | .halt => setHalt (gangHere s) (endContext s)

/-- A typed-buffer tensor of a phased region. -/
def phasedBuf (t : Tensor) : Bool := bitsOf t.desc 2 1 ≠ 0 && t.desc.testBit 3

/-- A logical offset of a buffer lies in a phased region of the context. -/
def phasedAt (c : Ctx) (cb : Bool) (off : Nat) : Bool := c.regions.any (fun r => r.cb = cb && r.phased && r.base ≤ off && off < r.base + r.size)

/-- A copy command that the swap of the halves waits for (R181, R215): of this phase, one that writes a back half, be it with
its completion word, or reads a front half; a deferred one of the previous phase that reads a front half. -/
def holdsSwap (s : State) (x : Xfer) : Bool :=
  x.own.ctxid = s.c.id.ctxid && (
    (x.own.phseq = s.c.phseq && (phasedBuf x.dst || (!x.sh.fm && phasedBuf x.src)
        || (bitsOf x.dst.desc 2 1 ≠ 0 && x.cw.any (fun w => phasedAt s.c w.1 w.2.1))))
      || (x.own.phseq + 1 = s.c.phseq && bitsOf x.dst.desc 2 1 = 0 && !x.sh.fm && phasedBuf x.src))

/-- A back-half writer of the phase, a reader of a front half, matrix work or a token merge command is still to finish: copies,
gets with their completion words, result records, and the completion words of the attention commands (R155, R181, R215, R246,
R314, R352, R375). -/
def backWriters (s : State) : Bool :=
  let mine (o : Owner) : Bool := o.ctxid = s.c.id.ctxid && o.phseq = s.c.phseq
  let word (cw : Option Nat) : Bool := cw.any (phasedAt s.c false)
  s.core.xq.any (holdsSwap s) || unitBusy s.c || !s.c.kats.isEmpty
    || s.pkg.fab.gets.any (fun g => mine g.own && (phasedAt s.c false g.off
      || (g.cw && (findConn s g.own.ctxid g.cn).any (fun c => phasedAt s.c false c.gcw))))
    || s.pkg.attn.asks.any (fun a => mine a.own && phasedAt s.c false a.resOff)
    || s.pkg.attn.apps.any (fun a => mine a.own && word a.cw) || s.pkg.attn.rebals.any (fun a => mine a.own && word a.cw)
    || s.pkg.attn.tiers.any (fun a => mine a.own && word a.cw)

/-- A rollback that also takes the context off its core: it is saved as its checkpoint stands (R163, R282, R284). -/
def rollOut (s : State) : State :=
  let s := rollback s
  s.withC { s.c with saving := true }

/-- What a mismatch between the members of a twin gang does to this one (R284): before the phase is emitted, one more
run as a twin; the second time the gang ends, a member that is in the cullet is retired, or else both join it, and the
context is switched out, to be placed again as a twin task. -/
def twinMismatch (s : State) : State :=
  if s.c.emitted then abort .uncontained (freeAddr s) { s with grp := { s.grp with pc := s.c.a.pc } }
  else if !s.c.twinMiss then
    let s := rollback s
    s.withC { s.c with twinMiss := true }
  else
    let mate := Config.coreId ^^^ 1
    let s := dropMates s
    let p := s.pkg
    let ill (c : BitVec 8) : Bool := p.cullet.contains c
    let p :=
      if ill mate || ill Config.coreId then
        ([mate, Config.coreId].filter ill).foldl (fun p c => retireCore c p) p
      else joinCullet mate (joinCullet Config.coreId p)
    rollOut (s.withPkg p)

/-- The members of a twin gang compare their signatures before the buffered set is performed (R181, R284); what the
companion holds is not known to the model (log 14). -/
def twinFails (s : State) : Bool := s.c.id.twin && !Config.companion s.tick

/-- A commit goes on as far as it can (R181, R182): it waits for the phase's scoreboarded results and back-half
writers, then takes every pending result, invalidates the latches, and performs the buffered set. A put that would read a
poisoned word consumes it (R184). -/
def advanceCommit (s : State) : State :=
  match s.c.commit with
  | none => s
  | some r =>
    if !r.started && (!s.c.ops.isEmpty || backWriters s) then s
    else if !r.started && twinFails s then twinMismatch s
    else
      let (r, s) :=
        if r.started then (r, s)
        else
          let s := takeAllPending s
          ({ r with started := true, rest := arrivalsLast s.c.buf },
            s.withC { s.c with latch := Vector.replicate 8 ⟨none, false⟩ })
      let (r, s) := performAll r.rest none r s
      match r.rest with
      | [] => if waitsAcks r.scope && remoteUnpublished s then setCommit r s else finishCommit r s
      | b :: _ => match if heldBack none s b then none else sourcePoison s b with
        | none => setCommit r s
        | some pa =>
          let s := setCommit r s
          consumeLate (BitVec.ofNat 64 pa) s

/-- A phase ends: the group holding the slot is the last of the phase, and the next group is the checkpoint's
(R51, R181, R183). -/
def beginCommit (sc : Scope) (e : Ending) (s : State) : State :=
  advanceCommit (s.withC { s.c with
    a := { s.c.a with pc := s.grp.nx }
    commit := some ⟨sc, e, false, false, [], 0⟩ })

end Sys2Proof.Machine
end

