-- ==== Sys2Proof/Machine/Sync.lean ====
section
/-! DEFINITION. Phases, fences, waits and barriers, and the events that perform loads and atomics, complete
commits and deliver late traps (R50, R177 to R209). -/

namespace Sys2Proof.Machine

/-! ## Both contexts -/

/-- The machine with the core's other context as the one that runs. -/
def swapCtx (s : State) : State := { s with c := s.c2, c2 := s.c, slot1 := !s.slot1 }

/-- An action on the core's other context. -/
def inOther (f : State → State) (s : State) : State := swapCtx (f (swapCtx s))

/-! ## phase, phin, fence -/

/-- A tile of the running context is open (R238, R246). -/
def reductionsOpen (s : State) : Bool := !s.c.a.opens.isEmpty

/-- Matrix work that the context issued before the group has not all been performed (R246). -/
def matrixBefore (s : State) : Bool := matrixUnder s.c s.grp.eng

/-- The end of a phase waits for the matrix work issued before its group; an open tile then traps (R246). -/
def closeMatrix (s : State) : Res Unit :=
  if matrixBefore s then waitRoom else need (!reductionsOpen s) .liveReduction

/-- `phase` commits at a scope (R201); in a handler it traps (R403). -/
def execPhase (sc : Scope) (s : State) : Host.Outcome State Fault Refusal :=
  always s (fun s => do
    need (!s.c.a.inh) .illegal
    closeMatrix s
    .ok (beginCommit sc .goOn s))

/-- What `phin` reads: PHSEQ, RERUNS, RERUN, and EMITTED as it stood before the group (R202). -/
def phinValue (s : State) : W64 :=
  BitVec.ofNat 64 (s.c.phseq.toNat % 2 ^ 48 * 2 ^ 16 + s.c.reruns % 256 * 2 ^ 8
    + (if s.c.reruns ≠ 0 then 2 else 0) + s.grp.emitted.toNat)

/-- `phin` (R202). -/
def execPhin (g : Fin 16) (d : Dst) (s : State) : Host.Outcome State Fault Refusal :=
  guarded g s (fun s => writeS d (phinValue s) (predTaint s.c (guardReg g)) 1 s)

/-- `fence` (R204): L closes a class of loads and atomics; E has later ones wait for the engine commands issued
so far. -/
def execFence (g : Fin 16) (l e : Bool) (s : State) : Host.Outcome State Fault Refusal :=
  guarded g s (fun s => .ok (s.withC { s.c with
    fences := if l then s.c.fences + 1 else s.c.fences
    engFence := if e then s.c.engCount else s.c.engFence }))

/-! ## Waits -/

/-- A wait joins those that keep the next group from issuing. -/
def waitFor (w : Wait) (s : State) : State := s.withC { s.c with waits := s.c.waits ++ [w] }

/-- `waita` (R206): the word is read in the back half of a phased region. -/
def execWaita (g : Fin 16) (ge cb : Bool) (a b : Src) (s : State) : Host.Outcome State Fault Refusal :=
  guarded g s (fun s => do
    let (x, y, _, s) ← srcSS a b s
    need (x.toNat % 4 = 0) .misalign
    match regionAt s.c.regions cb x.toNat 4 with
    | none => trapWith .bounds
    | some r => .ok (waitFor (.word cb (r.phys true x.toNat) (y.extractLsb' 0 32) ge) s))

/-- The group id and barrier number of a descriptor (R207). -/
def barGid (x : W64) : BitVec 8 := x.extractLsb' 0 8
def barNum (x : W64) : BitVec 8 := x.extractLsb' 8 8

/-- The core is a member of the descriptor's group (R207, R209). -/
def barMember (x : W64) (s : State) : Res Unit := need (memberSlot s.core (barGid x)).isSome .barrier

/-- Operations on a group that was notified of an abort trap (R394). -/
def notAborted (x : W64) (s : State) : Res Unit := need (!s.pkg.aborted.contains (barGid x)) .groupAbort

/-- `bar.init` (R208). -/
def execBarInit (g : Fin 16) (a b : Src) (s : State) : Host.Outcome State Fault Refusal :=
  guarded g s (fun s => do
    let (x, y, _, s) ← srcSS a b s
    barMember x s
    need (y.extractLsb' 0 16 ≠ 0) .barrier
    .ok (buffer (.barInit (barGid x) (barNum x) (y.extractLsb' 0 16)) s))

/-- `bar.arr` (R209). -/
def execBarArr (g : Fin 16) (a : Src) (s : State) : Host.Outcome State Fault Refusal :=
  guarded g s (fun s => do
    let (x, _, s) ← srcS a s
    barMember x s
    notAborted x s
    .ok (buffer (.barArr (barGid x) (barNum x)) s))

/-- `bar.wait` (R209). -/
def execBarWait (g : Fin 16) (a b : Src) (s : State) : Host.Outcome State Fault Refusal :=
  guarded g s (fun s => do
    let (x, y, _, s) ← srcSS a b s
    barMember x s
    notAborted x s
    match memberSlot s.core (barGid x) with
    | none => trapWith .barrier
    | some m => .ok (waitFor (.barrier (barGid x) (256 * m + (barNum x).toNat) (y.extractLsb' 0 32)) s))

/-! ## Performing loads and atomics -/

/-- The frames of 64 KiB that an operation of this package touches. -/
def MemOp.places (o : MemOp) : List Nat :=
  match o.kind with
  | .load l | .loadRo l _ _ => l.filterMap (fun b => match b.2 with | .mem pa => some pa | .fwd _ => none)
  | .atom _ pa _ _ => (List.range 8).map (pa + ·)
  | .remoteLoad _ _ _ | .remoteAtom _ _ _ _ _ | .stat _ _ _ => []

/-- Places of a remote operation at its node. -/
def MemOp.remotePlaces (o : MemOp) : List (BitVec 12 × Nat) :=
  match o.kind with
  | .remoteLoad n _ l => l.filterMap (fun b => match b.2 with | .mem x => some (n, x) | .fwd _ => none)
  | .remoteAtom n off _ _ _ => (List.range 8).map (fun i => (n, off + i))
  | .load _ | .loadRo _ _ _ | .atom _ _ _ _ | .stat _ _ _ => []

/-- The operation is a read of MXSTAT, which waits for matrix operations and nothing else (R262). -/
def MemOp.isStat (o : MemOp) : Bool := match o.kind with | .stat _ _ _ => true | _ => false

/-- An earlier outstanding operation keeps a later one of the same context from being performed: same location
(R189, R190), a fence between them (R204), acquire and release (R194, R196), taint (R198). -/
def blocks (e o : MemOp) : Bool :=
  !e.readOnly && !o.readOnly && !e.isStat && !o.isStat &&
    (e.places.any (fun a => o.places.contains a) || e.remotePlaces.any (fun a => o.remotePlaces.contains a)
      || e.fences < o.fences || e.acq || o.rel || (e.dep && o.tainted))

/-- An engine command is issued only once what it follows has been performed: an acquire (R194), an engine fence
(R204), and, where it is tainted, every `ldc` (R198). -/
def engineReady (tainted : Bool) (s : State) : Res Unit :=
  let s := atStart s
  if s.c.ops.any (fun o => o.acq || (tainted && o.dep)) || engineLeft s then waitRoom else .ok ()

/-- The number of the next engine command, and the machine that has counted it (R204). -/
def nextEngine (s : State) : Nat × State := (s.c.engCount, s.withC { s.c with engCount := s.c.engCount + 1 })

/-- Operation k of the running context may be performed now. -/
def mayPerform (s : State) (k : Nat) (o : MemOp) : Bool :=
  (s.c.ops.take k).all (fun e => !blocks e o)
    && (match o.kind with | .stat no _ _ => !matrixUnder s.c no | _ => true)
    && (o.readOnly || o.isStat || (!(o.rel && (deferredLeft s || (wideScope o.scope && remoteUnpublished s))) && !engineLeft s))
    && o.places.all (fun pa => !s.pkg.migrating.contains (alignDown pa (2 ^ 16)))

/-- Committed memory as it was before the latest n writes (R169). -/
def asBefore (m : Cells) (hist : List Cells) (n : Nat) : Cells := (hist.take n).foldl putCells m

/-- What MXSTAT reads: its other fields with OPEN (R234). -/
def withOpen (x : W64) (opens : List (Nat × Nat)) : W64 := mix 0xFF00 x (BitVec.ofNat 64 (opens.length * 2 ^ 8))
def mxstatValue (c : Ctx) : W64 := withOpen c.a.mxstat c.a.opens

/-- The bytes of a load, at their positions in the destination. -/
def readBytes (m : Cells) (l : List (Nat × LByte)) : List (Nat × Byte) :=
  l.map (fun b => (b.1, match b.2 with | .fwd x => x | .mem pa => getByte m pa))

/-- The bytes at positions as a number. -/
def joinBytes (l : List (Nat × Byte)) : Nat := (l.map (fun b => b.2.toNat * 2 ^ (8 * b.1))).sum

/-- A vector with bytes replaced at positions. -/
def patchV (old : VWord) (l : List (Nat × Byte)) : VWord :=
  let mask := joinBytes (l.map (fun b => (b.1, (0xFF : Byte))))
  mix (BitVec.ofNat 2048 mask) old (BitVec.ofNat 2048 (joinBytes l))

/-- What arrives for an operation's destination. -/
def resultOf (o : MemOp) (l : List (Nat × Byte)) : Option Eff :=
  match o.dst with
  | .none => none
  | .scalar (.reg r) => some (.s r (BitVec.ofNat 64 (joinBytes l)) o.taint)
  | .scalar (.latch n) => some (.latS n (BitVec.ofNat 64 (joinBytes l)) o.taint)
  | .scalar (.fifo n) => some (.push n [BitVec.ofNat 64 (joinBytes l)])
  | .vector (.reg r) old => some (.v r (patchV old l) o.taint)
  | .vector (.latch n) old => some (.latV n (patchV old l) o.taint)
  | .vector (.fifo n) old => some (.push n (vWords (patchV old l)))

/-- A result whose data has arrived is due at the next group, of the stream or of a handler, after the results due there that
issued before it (R48, R50, R52). No later result due there has its destination, since every group that writes it waits for
the data. -/
def landResult (o : MemOp) (l : List (Nat × Byte)) (s : State) : State :=
  match resultOf o l with
  | none => s
  | some e => sched e 0 s

/-- The list of operations without one. -/
def dropOp (k : Nat) (s : State) : State := s.withC { s.c with ops := s.c.ops.eraseIdx k }

/-- Operation k is performed and its result arrives (R50, R159, R169, R203). -/
def performOp (k : Nat) (o : MemOp) (s : State) : State :=
  match o.kind with
  | .load l => landResult o (readBytes s.pkg.mem l) (dropOp k s)
  | .loadRo l bound issued =>
    let n := s.pkg.hist.length - issued + Config.roAge s.tick % (issued - bound + 1)
    landResult o (readBytes (asBefore s.pkg.mem s.pkg.hist n) l) (dropOp k s)
  | .atom op pa b e =>
    let x := getNum s.pkg.mem pa 8
    landResult o (cellsAt 0 (bytesOf 8 x)) (dropOp k (performAtom op pa b e s))
  | .stat _ opens got => landResult o (cellsAt 0 (bytesOf 8 (withOpen (got.getD s.c.a.mxstat) opens).toNat)) (dropOp k s)
  | .remoteLoad _ _ _ | .remoteAtom _ _ _ _ _ => s

/-- The operation awaits nothing but this package's memory. -/
def MemOp.isLocal (o : MemOp) : Bool := match o.kind with | .remoteLoad _ _ _ | .remoteAtom _ _ _ _ _ => false | _ => true

/-- Operation k of the running context is performed where the orders allow it, once the words that it reads of HBM are
delivered (R432); its data may be poisoned, and is then consumed (R184). -/
def arriveOp (k : Nat) (poison : Bool) (s : State) : State :=
  match s.c.ops[k]? with
  | none => s
  | some o =>
    if !o.isLocal || !mayPerform s k o then s else
    let s := fetchHbm o.places s
    let bad := o.places.find? (poisoned s.pkg)
    if !hbmReady s.pkg.hbm o.places then s
    else
    let s := unfetch o.places s
    if (poison && !o.places.isEmpty) || bad.isSome then
      consumeLate (BitVec.ofNat 64 (bad.getD (o.places.headD 0))) s
    else performOp k o s

/-- LOAD_DATA_ARRIVAL: the k-th operation outstanding on the core, those of the running context first (R50). -/
def execLoadDataArrival (k : Nat) (poison : Bool) (s : State) : Host.Outcome State Fault Refusal :=
  event (if k < s.c.ops.length then arriveOp k poison s
    else inOther (arriveOp (k - s.c.ops.length) poison) s)

/-! ## Events -/

/-- COMMIT_COMPLETE: each context's commit goes on as far as it can (R182). -/
def execCommitComplete (s : State) : Host.Outcome State Fault Refusal :=
  event (inOther advanceCommit (advanceCommit s))

/-- GROUP_ABORT_NOTICE: a notice of an abort in another package is performed here (R394). -/
def execGroupAbortNotice (gid : BitVec 8) (s : State) : Host.Outcome State Fault Refusal :=
  event (notifyGroup (chanGroup s) gid s)

/-- The context will trap PHASE_BUDGET at its next group. -/
def budgetLate (c : Ctx) : Bool := c.late.any (fun l => l.cause = .phaseBudget)

/-- The phase clock of the running context has reached LIMIT (R180): it will trap PHASE_BUDGET. A disabled
budget, a handler, a freeze and a commit stop the clock. -/
def budgetSpent (s : State) : State :=
  let c := s.c
  let limit := c.a.phbudget.toNat % 2 ^ 32
  if !c.live || limit = 0 || c.a.inh || c.frozen.isSome || c.commit.isSome || budgetLate c then s
  else s.withC { c with clock := max limit c.clock, late := c.late ++ [⟨.phaseBudget, freeAddr s, false⟩] }

/-- PHASE_BUDGET (R180). -/
def execPhaseBudget (s : State) : Host.Outcome State Fault Refusal := event (budgetSpent s)

/-- A late trap of the running context is delivered at its next group, where the results due there have taken effect; it is
held while a handler runs (R52, R403). -/
def deliverLate (s : State) : State :=
  match s.c.late with
  | [] => s
  | l :: r =>
    if !s.c.live || s.c.a.inh || s.c.frozen.isSome || s.c.commit.isSome then s
    else
      let s := applyDue (s.withC { s.c with late := r })
      takeTrap l.cause l.addr 0 { s with grp := { s.grp with pc := s.c.a.pc } }

/-- A V slot's typed-buffer write falls due while matrix work or a token merge command issued before it is still to read
the buffers: the group waits, so that the write is held back (R245, R375). -/
def heldWrite (c : Ctx) : Bool := c.pend.any (fun p => p.due ≤ c.gc && heldBuf c p)

/-- LATE_TRAP_DELIVERY (R403). -/
def execLateTrapDelivery (s : State) : Host.Outcome State Fault Refusal := event (if heldWrite s.c then s else deliverLate s)

/-- BARRIER_ARRIVAL: an arrival from another core or package is delivered (R207, R209). -/
def execBarrierArrival (gid b : BitVec 8) (s : State) : Host.Outcome State Fault Refusal :=
  event (deliverArrival gid b s)

/-- The membership slots and barrier entries after the group's table entry is filled (R207): a slot held for it is
freed, the lowest free one is taken, and its entries get N = the local member count. -/
def joinGroup (gid : BitVec 8) (rec : GroupRec) (k : Core) : Core :=
  let member := k.member.map (fun m => if m = some gid then none else m)
  let k := { k with member := member }
  if !rec.cores.getLsbD Config.coreId.toNat then k
  else match findIdx (fun m => m = none) member.toList with
    | none => k
    | some m =>
      let n := BitVec.ofNat 16 (popN 256 rec.cores.toNat)
      let bars := (List.range 256).foldl (fun t i => put t (256 * m + i) ⟨n, 0, 0⟩) k.bars
      { k with
        member := member.mapIdx (fun i x => if i = m then some gid else x)
        bars := bars }

/-- The group-table entry is filled, at launch or anew (R16, R207, R394). -/
def fillGroup (gid : BitVec 8) (rec : GroupRec) (s : State) : State :=
  let waiting := s.pkg.early.filter (fun a => a.1 = gid)
  let s := s.withPkg { s.pkg with
    groups := put s.pkg.groups gid.toNat rec
    aborted := s.pkg.aborted.filter (fun g => g ≠ gid)
    early := s.pkg.early.filter (fun a => a.1 ≠ gid) }
  let s := s.withCore (joinGroup gid rec s.core)
  waiting.foldl (fun s a => deliverArrival a.1 a.2 s) s

/-- GROUP_TABLE_FILL (R207). -/
def execGroupTableFill (gid : BitVec 8) (rec : GroupRec) (s : State) : Host.Outcome State Fault Refusal :=
  event (fillGroup gid rec s)

end Sys2Proof.Machine
end

