-- ==== Sys2Proof/Machine/Copy.lean ====
section
/-! DEFINITION. The copy engines: shadow sets, commands, their performance and their faults (R210 to R229). -/

namespace Sys2Proof.Machine

/-! ## Shadow sets -/

/-- A shadow-set write falls due after 1 group (R211). -/
def shadowSlot (g : Fin 16) (e : Fin 2) (w : State → Res (ShadowW × State)) (s : State) : Host.Outcome State Fault Refusal :=
  guarded g s (fun s => do
    let (x, s) ← w s
    .ok (sched (.shadow e x) 1 s))

/-- The low and high words of an operand. -/
def loW (x : W64) : W32 := x.extractLsb' 0 32
def hiW (x : W64) : W32 := x.extractLsb' 32 32

/-- `cp.src` and `cp.src.hi` (R222). -/
def execCpSrc (g : Fin 16) (e : Fin 2) (hi : Bool) (a b : Src) (s : State) : Host.Outcome State Fault Refusal :=
  shadowSlot g e (fun s => do
    if hi then
      let (y, _, s) ← srcS b s
      .ok (.srcHi (loW y) (hiW y), s)
    else
      let (x, y, _, s) ← srcSS a b s
      .ok (.src (x.extractLsb' 0 10) (loW y) (hiW y), s)) s

/-- `cp.dst` and `cp.dst.hi` (R222). -/
def execCpDst (g : Fin 16) (e : Fin 2) (hi : Bool) (a b : Src) (s : State) : Host.Outcome State Fault Refusal :=
  shadowSlot g e (fun s => do
    if hi then
      let (y, _, s) ← srcS b s
      .ok (.dstHi (loW y) (hiW y), s)
    else
      let (x, y, _, s) ← srcSS a b s
      .ok (.dst (x.extractLsb' 0 10) (loW y) (hiW y), s)) s

/-- `cp.shp` and `cp.shp.hi` (R223). -/
def execCpShp (g : Fin 16) (e : Fin 2) (hi : Bool) (b : Src) (s : State) : Host.Outcome State Fault Refusal :=
  shadowSlot g e (fun s => do
    let (y, _, s) ← srcS b s
    .ok (if hi then .shpHi (loW y) (hiW y) else .shp (loW y) (hiW y), s)) s

/-- `cp.fmt` (R224). -/
def execCpFmt (g : Fin 16) (e : Fin 2) (b : Src) (s : State) : Host.Outcome State Fault Refusal :=
  shadowSlot g e (fun s => do
    let (y, _, s) ← srcS b s
    .ok (.conv (y.extractLsb' 0 16), s)) s

/-- `cp.fmt.ctl` (R224). -/
def execCpFmtCtl (g : Fin 16) (e : Fin 2) (b : Src) (s : State) : Host.Outcome State Fault Refusal :=
  shadowSlot g e (fun s => do
    let (y, _, s) ← srcS b s
    need (fieldOf y 2 0 ≤ 4) .format
    .ok (.ctl (y.extractLsb' 0 6), s)) s

/-- `cp.fill` (R225). -/
def execCpFill (g : Fin 16) (e : Fin 2) (on : Bool) (b : Src) (s : State) : Host.Outcome State Fault Refusal :=
  shadowSlot g e (fun s => do
    let (y, _, s) ← srcS b s
    .ok (.fill y on, s)) s

/-! ## Commands -/

/-- CTL's SCOPE, PRI and CWS (R211). -/
def ctlPri (h : Shadow) : Nat := bitsOf h.ctl.toNat 4 3
def ctlCws (h : Shadow) : Bool := h.ctl.getLsbD 5

/-- CONV's EN, SAT, RM, DF and SF (R212). -/
def convEn (h : Shadow) : Bool := h.conv.getLsbD 12
def convSat (h : Shadow) : Bool := h.conv.getLsbD 11
def convRm (h : Shadow) : Nat := bitsOf h.conv.toNat 10 8
def convDf (h : Shadow) : Option Fmt := fmtOf (h.conv.extractLsb' 4 4)
def convSf (h : Shadow) : Option Fmt := fmtOf (h.conv.extractLsb' 0 4)

/-- The rounding of a converting command (R212). -/
def convRounding (h : Shadow) : Rounding :=
  ⟨match convRm h with | 1 => .rtz | 2 => .rup | 3 => .rdn | _ => .rne, 0, convSat h, false⟩

/-- A format is legal as a `vcvt` target (R83). -/
def vcvtTarget : Fmt → Bool
  | .e2m1 | .int4 | .sp2 => false
  | .fp32 | .fp16 | .bf16 | .e4m3 | .e5m2 | .fp64 | .int32 | .int16 | .int8 | .uint32 | .uint16 | .uint8 => true

/-- A format is legal as a vcvt target and as wide as its tensor's elements (R212, R226). -/
def convOk (t : Tensor) (f : Option Fmt) : Bool :=
  match f with
  | some f => vcvtTarget f && widthOf f = 8 * 2 ^ t.esz
  | none => false

/-- Coordinates and extents of a box as naturals. -/
def natsOf (v : Vector W32 4) : List Nat := v.toList.map BitVec.toNat

/-- Some extent of the box is zero (R213, R226). -/
def emptyBox (h : Shadow) : Bool := (natsOf h.bx).any (· = 0)

/-- The indices of the box, dimension 0 fastest (R213). -/
def boxIndices (h : Shadow) : List (List Nat) :=
  let b := natsOf h.bx
  (List.range (b.getD 3 0)).flatMap (fun i3 => (List.range (b.getD 2 0)).flatMap (fun i2 =>
    (List.range (b.getD 1 0)).flatMap (fun i1 => (List.range (b.getD 0 0)).map (fun i0 => [i0, i1, i2, i3]))))

/-- Start coordinates plus an index. -/
def addIndex (c : Vector W32 4) (i : List Nat) : List Nat := List.zipWith (· + ·) (natsOf c) i

/-- The box lies in the tensor's extents (R226). -/
def boxFits (t : Tensor) (c : Vector W32 4) (h : Shadow) : Bool :=
  (List.range 4).all (fun d => (natsOf c).getD d 0 + (natsOf h.bx).getD d 0 ≤ t.ext.getD d 0)

/-- The first byte of an element of a linear tensor, exactly. -/
def linearAt (t : Tensor) (c : List Nat) : Nat :=
  t.base + ((List.range t.rank).map (fun d => c.getD d 0 * t.str.getD d 0)).sum

/-- The bytes that a box of a typed-buffer tensor spans: from its first element to its last (R226). -/
def boxSpan (t : Tensor) (c : Vector W32 4) (h : Shadow) : Nat × Nat :=
  let last := List.zipWith (fun x b => x + (b - 1)) (natsOf c) (natsOf h.bx)
  (linearAt t (natsOf c), linearAt t last + 2 ^ t.esz)

/-- The region of the context that wholly holds the box of a typed-buffer tensor (R155). -/
def boxRegion (t : Tensor) (c : Vector W32 4) (h : Shadow) (s : State) : Option Region :=
  let (lo, hi) := boxSpan t c h
  regionAt s.c.regions (t.space = 2) lo (hi - lo)

/-- The box of a typed-buffer tensor lies in a region (R155, R226). -/
def boxInRegion (t : Tensor) (c : Vector W32 4) (h : Shadow) (s : State) : Bool := t.space = 0 || (boxRegion t c h s).isSome

/-- Two byte ranges, each as start and end, meet. -/
def spansMeet (a b : Nat × Nat) : Bool := a.1 < b.2 && b.1 < a.2

/-- A box of a CB tensor touches bytes of an open tile (R238). -/
def boxOnTile (t : Tensor) (c : Vector W32 4) (h : Shadow) (s : State) : Bool :=
  t.space = 2 && s.c.a.opens.any (fun o => (boxIndices h).any (fun i =>
    let x := linearAt t (addIndex c i)
    spansMeet (x, x + 2 ^ t.esz) (o.1, o.1 + o.2)))

/-- By how much the half that a command uses lies above the logical offsets (R214, R215). -/
def halfUp (t : Tensor) (c : Vector W32 4) (h : Shadow) (back : Bool) (s : State) : Nat :=
  match boxRegion t c h s with
  | some r => if t.space = 0 then 0 else r.phys back 0
  | none => 0

/-- How many gets and page-ins of a context are at work on an engine (R316, R368). -/
def othersOn (p : Pkg) (ctx : W32) (e : Fin 2) : Nat :=
  (p.fab.gets.filter (fun g => g.own.ctxid = ctx && g.e = e)).length
    + (p.attn.tiers.filter (fun t => t.own.ctxid = ctx && t.e = e)).length

/-- The copy commands of a context on an engine that have been handed to it: with its gets and page-ins at most 16, and ahead of
them its refetches (R217, R219). -/
def handedOn (p : Pkg) (k : Core) (ctx : W32) (e : Fin 2) : List Xfer :=
  let l := k.xq.filter (fun x => x.own.ctxid = ctx && x.e = e)
  l.filter (·.refetch) ++ (l.filter (fun x => !x.refetch)).take (16 - othersOn p ctx e)

/-- How many commands an engine holds of the running context (R217, R227). -/
def engineLoad (s : State) (e : Fin 2) : Nat :=
  (handedOn s.pkg s.core s.c.id.ctxid e).length + othersOn s.pkg s.c.id.ctxid e

/-- The deferred copies of the current phase on an engine (R217). -/
def deferredOn (c : Ctx) (e : Fin 2) : List Xfer :=
  c.buf.filterMap (fun b => match b with | .copy x => if x.e = e then some x else none | _ => none)

/-- A global tensor whose BASE lies in space 1 or in spaces 0x4 to 0xF (R215, R226). -/
def badBase (t : Tensor) : Bool :=
  let sp := spaceOf (BitVec.ofNat 64 t.base)
  t.space = 0 && (sp = 1 || 4 ≤ sp)

/-- The completion word of a command in CB lies on an open tile (R238). -/
def wordOnTile (off : Nat) (s : State) : Bool := s.c.a.opens.any (fun o => spansMeet (off, off + 4) (o.1, o.1 + o.2))

/-- `cp.go`: the checks in their order, then the command (R213 to R219, R226). R238's check of open tiles stands, for the boxes
and for the completion word, after that of BOUNDS, a place that no rule gives it (log 92). -/
def execCpGo (g : Fin 16) (e : Fin 2) (acq rel inp cw : Bool) (a b : Src) (s : State) : Host.Outcome State Fault Refusal :=
  guarded g s (fun s => do
    let h := s.c.a.shadow[e]
    let (x, y, t, s) ← if cw then srcSS a b s else .ok (0, 0, false, s)
    let (dst, s) ← tensorEntry h.dtid.toNat s
    let (src, s) ← if h.fm then .ok (dst, s) else tensorEntry h.stid.toNat s
    need (dst.ok && (h.fm || src.ok)) .tensor
    need (!badBase dst && (h.fm || !badBase src)) .address
    need dst.writable .tensor
    need (h.fm || convEn h || src.esz = dst.esz) .tensor
    need (h.fm || !convEn h || (convOk src (convSf h) && convOk dst (convDf h) && convRm h ≤ 3 && bitsOf h.conv.toNat 15 13 = 0))
      .format
    need (emptyBox h || ((h.fm || boxFits src h.sc h) && boxFits dst h.dc h)) .bounds
    need (emptyBox h || ((h.fm || boxInRegion src h.sc h s) && boxInRegion dst h.dc h s)) .bounds
    need ((h.fm || !boxOnTile src h.sc h s) && !boxOnTile dst h.dc h s) .tileOpen
    need (!inp || phasedBuf dst) .tensor
    need (!cw || x.toNat % 4 = 0) .misalign
    need (!cw || (regionAt s.c.regions (ctlCws h) x.toNat 4).isSome) .bounds
    need (!(cw && ctlCws h && wordOnTile x.toNat s)) .tileOpen
    let deferred := dst.space = 0
    need (!(deferred && 16 ≤ (deferredOn s.c e).length) && !(inp && 16 ≤ (s.c.inputs.filter (fun i => i.e = e)).length))
      .bufferFull
    engineReady (t || predTaint s.c (guardReg g)) s
    if !deferred && 16 ≤ engineLoad s e then waitRoom
    else
      let (no, s) := nextEngine s
      let cmd : Xfer :=
        { no := no, e := e, acq := acq, rel := rel, inp := inp
          cw := if cw then some (ctlCws h, x.toNat, loW y) else none
          sh := h, src := src, dst := dst, sUp := halfUp src h.sc h deferred s, dUp := halfUp dst h.dc h true s
          refetch := false, own := ownerOf s }
      let s := if inp then s.withC { s.c with inputs := s.c.inputs ++ [cmd] } else s
      .ok (if deferred then buffer (.copy cmd) s else s.withCore { s.core with xq := s.core.xq ++ [cmd] }))

/-! ## Performing a command -/

/-- The machine as a unit sees it when it works for the owner of a command: the owner's roots and mode, and nothing
else of a context. -/
def asOwner (o : Owner) (s : State) : State :=
  { s with c := { Ctx.empty with
      live := true
      id := { Ident.none with ctxid := o.ctxid, sup := o.sup }
      a := { Arch.zero with asid := o.asid, ptroot := o.ptroot, ptpool := o.ptpool, pthost := o.pthost } } }

/-- A place in global memory, AS or CB, by physical address or offset. -/
inductive Spot where
  | mem (pa : Nat)
  | as (off : Nat)
  | cb (off : Nat)
deriving DecidableEq, Repr

/-- The byte at a spot. -/
def spotByte (s : State) : Spot → Byte
  | .mem a => getByte s.pkg.mem a
  | .as a => getByte s.core.as a
  | .cb a => getByte s.core.cb a

/-- The byte at a spot is poisoned (R184, R432, log 107). -/
def spotPoisoned (s : State) : Spot → Bool
  | .mem a => poisoned s.pkg a
  | .as a => s.core.bad.contains (false, a)
  | .cb a => s.core.bad.contains (true, a)

/-- The parts of n bytes at an address that lie in one 64 KiB page each: an element crosses at most one boundary (R160). -/
def pageParts (x : W64) (n : Nat) : List (W64 × Nat) :=
  let k := 2 ^ 16 - x.toNat % 2 ^ 16
  if n ≤ k then [(x, n)] else [(x, k), (x + BitVec.ofNat 64 k, n - k)]

/-- A stop of a command's access names the address (R221). -/
def stopAt (va : W64) : Stop → Stop
  | .trap c _ => .trap c (some va)
  | e => e

/-- One part of an element in global memory. -/
def partSpots (k : Access) (x : W64 × Nat) (s : State) : Res (List Spot × State) :=
  match if addressOk false x.1 s then paOf (spaceOf x.1) k x.1 s else trapWith .address with
  | .ok (pa, s) => .ok ((List.range x.2).map (fun i => .mem (pa + i)), s)
  | .error e => .error (stopAt x.1 e)

/-- Where the bytes of an element of a command's tensor lie, under the owner's translation, each part of it translated
(R151, R160, R221); `va` is what a fault names: of a tiled tensor, the address of the tile's table entry (log 88). -/
def spotOf (t : Tensor) (tid : Nat) (k : Access) (up : Nat) (c : List Nat) (s : State) : Res (List Spot × W64 × State) := do
  let n := 2 ^ t.esz
  let (p, s) ← match layout t tid true k c s with
    | .ok r => .ok r
    | .error e => .error (stopAt (BitVec.ofNat 64 (t.base + 8 * t.tileIndex c)) e)
  match p with
  | .as o => .ok ((List.range n).map (fun i => .as (o + up + i)), BitVec.ofNat 64 o, s)
  | .cb o => .ok ((List.range n).map (fun i => .cb (o + up + i)), BitVec.ofNat 64 o, s)
  | .va x =>
    let (l, s) ← inParts (partSpots k) (pageParts x n) s
    .ok (l.flatten, x, s)
  | .pa x pte va => match leafCheck k va pte x s with
    | .ok _ => .ok ((List.range n).map (fun i => .mem (x + i)), va, s)
    | .error e => .error (stopAt va e)

/-- One element of a command: where its bytes go, where they came from with the source's address, what they are. -/
structure Piece where
  dst : List Spot
  src : List Spot
  va : W64
  bytes : List Byte
deriving DecidableEq, Repr

/-- An element as the command converts it (R212, R213). -/
def convBytes (x : Xfer) (b : List Byte) : List Byte :=
  match convEn x.sh, convSf x.sh, convDf x.sh with
  | true, some f, some t => bytesOf (2 ^ x.dst.esz) (convertElem f t (convRounding x.sh) (ofBytes b)).1
  | _, _, _ => b

/-- FILL as an element (R213). -/
def fillBytes (x : Xfer) : List Byte :=
  let n := 2 ^ x.dst.esz
  (List.range n).map (fun i => BitVec.ofNat 8 (x.sh.fill.toNat / 2 ^ (8 * (i % 8))))

/-- One element is read (R213); poison names the address that `spotOf` gives and the byte's place in the element (R221, log 88). -/
def pieceAt (x : Xfer) (i : List Nat) (s : State) : Res (Piece × State) := do
  let dtid := x.sh.dtid.toNat
  if x.sh.fm then
    let (d, _, s) ← spotOf x.dst dtid .write x.dUp (addIndex x.sh.dc i) s
    .ok (⟨d, [], 0, fillBytes x⟩, s)
  else
    let (p, va, s) ← spotOf x.src x.sh.stid.toNat .read x.sUp (addIndex x.sh.sc i) s
    match findIdx (spotPoisoned s) p with
    | some i => trapAt .copyPoison (va + BitVec.ofNat 64 i)
    | none => .ok ()
    let (d, _, s) ← spotOf x.dst dtid .write x.dUp (addIndex x.sh.dc i) s
    .ok (⟨d, p, va, convBytes x (p.map (spotByte s))⟩, s)

/-- The elements in index order, up to the first that cannot be read or written. -/
def pieces (x : Xfer) : List (List Nat) → State → List Piece × State × Option Stop
  | [], s => ([], s, none)
  | i :: r, s =>
    match pieceAt x i s with
    | .error e => ([], s, some e)
    | .ok (p, s) =>
      let (l, s, e) := pieces x r s
      (p :: l, s, e)

/-- The bytes that a command writes, each at its spot; a byte that it also reads is unspecified (R213). -/
def pieceBytes (tick : Nat) (l : List Piece) : List (Spot × Byte) :=
  let sources := l.flatMap (·.src)
  (l.flatMap (fun p => p.dst.zip p.bytes)).mapIdx (fun n w =>
    if sources.contains w.1 then (w.1, Config.freeByte tick n) else w)

/-- The pairs of a list of spots for global memory, AS and CB. -/
def memPart (l : List (Spot × Byte)) : Cells := l.filterMap (fun w => match w.1 with | .mem a => some (a, w.2) | _ => none)
def asPart (l : List (Spot × Byte)) : Cells := l.filterMap (fun w => match w.1 with | .as a => some (a, w.2) | _ => none)
def cbPart (l : List (Spot × Byte)) : Cells := l.filterMap (fun w => match w.1 with | .cb a => some (a, w.2) | _ => none)

/-- The owner of a command is resident: as the running context, or as the other one. -/
def ownedBy (o : Owner) (c : Ctx) : Bool := c.live && c.id.ctxid = o.ctxid

/-- An action on the resident context that owns a command. -/
def onOwner (o : Owner) (f : State → State) (s : State) : State :=
  if ownedBy o s.c then f s else if ownedBy o s.c2 then inOther f s else s

/-- An action on the owner of a command, resident or switched out. -/
def onOwnerOr (o : Owner) (f : State → State) (g : Saved → Saved) (s : State) : State :=
  if ownedBy o s.c || ownedBy o s.c2 then onOwner o f s
  else s.withPkg { s.pkg with saved := s.pkg.saved.map (fun v => if v.id.ctxid = o.ctxid then g v else v) }

/-- A late trap for the owner of a command, at its next group or when it resumes (R221, R278). -/
def lateTrap (o : Owner) (l : Late) (s : State) : State :=
  onOwnerOr o (fun s => s.withC { s.c with late := s.c.late ++ [l] }) (fun v => { v with late := v.late ++ [l] }) s

/-- One more command of an engine has completed for its owner (R227). -/
def countDone (o : Owner) (e : Fin 2) (s : State) : State :=
  onOwnerOr o (fun s => s.withC { s.c with cpDone := s.c.cpDone.set e (s.c.cpDone[e] + 1) })
    (fun v => { v with cpDone := v.cpDone.set e (v.cpDone[e] + 1) }) s

/-- The last error of an engine for a command's owner (R227). -/
def recordErr (o : Owner) (e : Fin 2) (x : BitVec 4) (s : State) : State :=
  onOwnerOr o (fun s => s.withC { s.c with cpErr := s.c.cpErr.set e x }) (fun v => { v with cpErr := v.cpErr.set e x }) s

/-- The phase in which the running context issued a command is still open. -/
def openPhase (o : Owner) (s : State) : Bool := s.c.phseq = o.phseq

/-- An engine's bytes reach a typed buffer (R215, R220): those of the open phase revert with it; those of a command
of an earlier phase stand through a rollback. -/
def landBuf (o : Owner) (cb : Bool) (w : Cells) (s : State) : State :=
  let s := onOwner o (fun s =>
    if openPhase o s then s.withC (noteDirty cb w s.c)
    else
      let back := w.filter (fun x => s.c.regions.any (fun r => r.cb = cb && inRange r.back x.1))
      if cb then s.withC { s.c with backCb := putCells s.c.backCb back }
      else s.withC { s.c with backAs := putCells s.c.backAs back }) s
  writeBuf cb w s

/-- A list of bytes reaches its spots. -/
def landBytes (o : Owner) (l : List (Spot × Byte)) (s : State) : State :=
  let s := if (memPart l).isEmpty then s else writeMem (memPart l) s
  landBuf o true (cbPart l) (landBuf o false (asPart l) s)

/-- A word of a typed buffer of the running context is written, or a value added to it, in the half that is back now. -/
def putWord (o : Owner) (w : Bool × Nat × W32 × Bool) (s : State) : State :=
  let (cb, off, v, add) := w
  match regionAt s.c.regions cb off 4 with
  | none => s
  | some r =>
    let a := r.phys true off
    let v := if add then v + BitVec.ofNat 32 (getNum (s.buf cb) a 4) else v
    landBuf o cb (cellsAt a (bytesOf 4 v.toNat)) s

/-- A completion word of a command is written, in the half that is back at the time of writing; that of an owner that is
switched out, when it resumes (R218, log 93). -/
def giveWord (o : Owner) (w : Bool × Nat × W32 × Bool) (s : State) : State :=
  onOwnerOr o (putWord o w) (fun v => { v with words := v.words ++ [w] }) s

/-- The completion word of a command (R218). -/
def landWord (o : Owner) (cw : Option (Bool × Nat × W32)) (s : State) : State :=
  match cw with
  | none => s
  | some (cb, off, v) => giveWord o (cb, off, v, false) s

/-- An `rma.get` or `tier.in` of the same context, engine and class is still to finish before the command starts (R216,
R316, R368). -/
def behindOther (p : Pkg) (x : Xfer) : Bool :=
  !x.refetch &&
    (p.fab.gets.any (fun g => g.own.ctxid = x.own.ctxid && g.e = x.e && g.pri = ctlPri x.sh && g.no < x.no)
      || p.attn.tiers.any (fun t => t.own.ctxid = x.own.ctxid && t.e = x.e && t.pri = ctlPri x.sh && t.no < x.no))

/-- The class of a command: a refetch has class 3 (R219). -/
def xferPri (x : Xfer) : Nat := if x.refetch then 3 else ctlPri x.sh

/-- The commands that an engine may take up: of each context and class the first that has been handed to it, which follows
what the class orders before it (R216). -/
def headXfers (s : State) (e : Fin 2) : List Xfer :=
  let l := s.core.xq.filter (fun x => x.e = e && (handedOn s.pkg s.core x.own.ctxid e).contains x)
  l.filter (fun x => l.find? (fun y => y.own.ctxid = x.own.ctxid && xferPri y = xferPri x) = some x && !behindOther s.pkg x)

/-- A command is performed under its owner's translation: the bytes it moves, the machine with the walks made, and
what stopped it. -/
def runXfer (x : Xfer) (s : State) : List Piece × State × Option Stop :=
  let (l, t, e) := pieces x (boxIndices x.sh) (asOwner x.own s)
  (l, { t with c := s.c }, e)

/-- A word of AS that an engine is to write, where its region's back half has it, belongs to a source slot that a collective
operation has still to read (R218, R329). -/
def wordHeld (o : Owner) (off : Nat) (s : State) : Bool :=
  match regionAt (if ownedBy o s.c then s.c else s.c2).regions false off 4 with
  | some r => sourceHeld s o.ctxid (2 ^ 64) (r.phys true off) 4
  | none => false

/-- A copy command would write a source slot that a collective operation has still to read, with its data or its completion word:
its engine holds it (R329). -/
def ontoSource (x : Xfer) (s : State) (l : List Piece) : Bool :=
  l.any (fun p => p.dst.any (fun q => match q with | .as a => sourceHeld s x.own.ctxid (2 ^ 64) a 1 | _ => false))
    || x.cw.any (fun w => !w.1 && wordHeld x.own w.2.1 s)

/-- A piece touches a page under migration (R164). -/
def onMigrating (s : State) (l : List Piece) : Bool :=
  l.any (fun p => (p.dst ++ p.src).any (fun q => match q with
    | .mem a => s.pkg.migrating.contains (alignDown a (2 ^ 16))
    | .as _ | .cb _ => false))

/-- A command is ready: nothing it reads or writes waits for the MMP, for a migration or for a collective operation
(R164, R217, R329). -/
def xferReady (s : State) (x : Xfer) : Bool :=
  match runXfer x s with
  | (l, _, e) => !onMigrating s l && !ontoSource x s l && (match e with | some (.freeze _) => false | _ => true)

/-- The page-ins that an engine may take up: of each context and class the first, which follows the earlier commands of the
class (R216, R368). -/
def headTiers (s : State) (e : Fin 2) : List TierOp :=
  s.pkg.attn.tiers.filter (fun t => t.e = e
    && !s.core.xq.any (fun x => x.own.ctxid = t.own.ctxid && x.e = e && ctlPri x.sh = t.pri && x.no < t.no && !x.refetch)
    && !s.pkg.fab.gets.any (fun g => g.own.ctxid = t.own.ctxid && g.e = e && g.pri = t.pri && g.no < t.no)
    && !s.pkg.attn.tiers.any (fun u => u.own.ctxid = t.own.ctxid && u.e = e && u.pri = t.pri && u.no < t.no))

/-- The class and context that an engine serves next, of those whose commands are ready (R217): the highest class, and within
it a context other than the one that was served last. -/
def nextTurn (s : State) (e : Fin 2) : Option (Nat × W32) :=
  let l := ((headXfers s e).filter (xferReady s)).map (fun x => (xferPri x, x.own.ctxid))
    ++ (headTiers s e).map (fun t => (t.pri, t.own.ctxid))
  let top := (l.map Prod.fst).foldl max 0
  let m := l.filter (fun x => x.1 = top)
  match m.find? (fun x => look s.core.served (4 * e.val + top) ≠ some x.2) with
  | some x => some x
  | none => m.head?

/-- The copy command that an engine serves next (R217, R219): a refetch first, then one whose turn it is. -/
def nextXfer (s : State) (e : Fin 2) : Option Xfer :=
  let l := (headXfers s e).filter (xferReady s)
  match l.find? (·.refetch) with
  | some x => some x
  | none => l.find? (fun x => nextTurn s e = some (xferPri x, x.own.ctxid))

/-- The page-in that an engine serves next (R368). -/
def nextTier (s : State) (e : Fin 2) : Option TierOp :=
  if (headXfers s e).any (fun x => x.refetch && xferReady s x) then none
  else (headTiers s e).find? (fun t => nextTurn s e = some (t.pri, t.own.ctxid))

/-- The commands of an engine that wait for the MMP, each with its fault (R221). -/
def frozenXfers (s : State) (e : Fin 2) : List (Xfer × FaultRec) :=
  (headXfers s e).filterMap (fun x => match runXfer x s with
    | (_, _, some (.freeze f)) => some (x, { f with access := 3 })
    | _ => none)

/-- The frames that the handed commands have in flight, which are pinned (R164, R216). -/
def flyingFrames (s : State) : List Nat :=
  ([0, 1] : List (Fin 2)).flatMap (fun e =>
    (s.core.xq.filter (fun x => x.e = e && (handedOn s.pkg s.core x.own.ctxid e).contains x)).flatMap (fun x =>
      (runXfer x s).1.flatMap (fun p => (p.dst ++ p.src).filterMap (fun q => match q with
        | .mem a => some (alignDown a (2 ^ 16))
        | .as _ | .cb _ => none))))

/-- A command leaves its engine's queue. -/
def dropXfer (x : Xfer) (s : State) : State :=
  s.withCore { s.core with
    xq := s.core.xq.erase x
    served := put s.core.served (4 * x.e.val + xferPri x) x.own.ctxid }

/-- A command is complete (R216 to R219, R227). -/
def finishXfer (x : Xfer) (l : List Piece) (s : State) : State :=
  let s := dropXfer x (landBytes x.own (pieceBytes s.tick l) s)
  if x.refetch then s
  else
    let s := countDone x.own x.e s
    landWord x.own x.cw s

/-- The codes of ERR (R227). -/
def errCode : XferFault → BitVec 4
  | .unmapped => 1 | .access => 2 | .poolRegion => 3 | .poison => 4

/-- The code of ERR for a cause: R227 gives one to the four conditions of R221 only (log 81). -/
def errOf : Cause → Option (BitVec 4)
  | .unmapped => some 1
  | .access => some 2
  | .poolRegion => some 3
  | .copyPoison => some 4
  | _ => none

/-- The cause that a fault of a command delivers (R221). -/
def xferCause : XferFault → Cause
  | .unmapped => .unmapped | .access => .access | .poolRegion => .poolRegion | .poison => .copyPoison

/-- Some page-ins are cancelled; their units go back to the pool tier (R228, R344). -/
def dropTiers (p : TierOp → Bool) (s : State) : State :=
  s.withPkg { s.pkg with attn := { s.pkg.attn with tiers := s.pkg.attn.tiers.filter (fun t => !p t) } }

/-- The command of a number and the later ones of the same context, engine and class are cancelled, deferred copies of the
open phase among them, and ERR records the cause (R221). Of refetches only refetches are cancelled, and the command that
stops stays a declared input (log 94). -/
def cancelClass (o : Owner) (e : Fin 2) (pri no : Nat) (refetch : Bool) (why : Cause) (s : State) : State :=
  let gone (y : Xfer) : Bool :=
    y.own.ctxid = o.ctxid && y.e = e && ctlPri y.sh = pri && no ≤ y.no && y.refetch = refetch
  let s := s.withCore { s.core with xq := s.core.xq.filter (fun y => !gone y) }
  let s := dropTiers (fun t => t.own.ctxid = o.ctxid && t.e = e && t.pri = pri && no ≤ t.no && !refetch) s
  let s := match errOf why with
    | some c => recordErr o e c s
    | none => s
  onOwner o (fun s => s.withC { s.c with
    buf := s.c.buf.filter (fun b => match b with | .copy y => !gone y | _ => true)
    inputs := s.c.inputs.filter (fun y => !(gone y && y.no ≠ no)) }) s

/-- A command stops (R221): what it has written stays, the later commands of its context, engine and class are
cancelled, deferred copies of the open phase among them, ERR records the cause, and the trap is delivered, or poison is
consumed. A refetch cancels the later refetches of its engine and of the class of their `cp.go` (log 94). -/
def stopXfer (x : Xfer) (why : Cause) (va : W64) (done : List Piece) (s : State) : State :=
  let s := cancelClass x.own x.e (ctlPri x.sh) x.no x.refetch why (landBytes x.own (pieceBytes s.tick done) s)
  let sameOpen : Bool := (ownedBy x.own s.c && openPhase x.own s) || (ownedBy x.own s.c2 && s.c2.phseq = x.own.phseq)
  let consumed : Bool := why = .copyPoison && (x.refetch || (sameOpen && x.dst.space ≠ 0))
  if consumed then onOwner x.own (consumeLate va) s
  else lateTrap x.own ⟨why, va, sameOpen && x.dst.space ≠ 0 && !x.refetch⟩ s

/-- What a stopped walk or check of a command reports, where it is not still to be serviced by the MMP: a condition of
R221, or an element whose address or tile is not legal (R144, R151, log 81). -/
def stopCause : Stop → Option (Cause × Option W64)
  | .trap c a => some (c, a)
  | .freeze _ | .stall _ | .fault _ | .resid _ | .matrix | .depth _ | .poison _ => none

/-- The bytes of memory that pieces read, or write. -/
def readPas (l : List Piece) : List Nat := l.flatMap (fun p => p.src.filterMap (fun q => match q with | .mem a => some a | _ => none))
def writePas (l : List Piece) : List Nat := l.flatMap (fun p => p.dst.filterMap (fun q => match q with | .mem a => some a | _ => none))

/-- The words of HBM that a command reads are transferred; the answer says whether all are delivered, with every log update they
make, and no channel that the command writes swaps a lane (R432, R433, R435). -/
def fetchXfer (x : Xfer) (s : State) : State × Bool :=
  if s.pkg.hbm.quiet then (s, true)
  else
    let (l, _, _) := runXfer x (s.withHbm { s.pkg.hbm with poison := [] })
    let s := fetchHbm (readPas l) s
    (s, hbmReady s.pkg.hbm (readPas l) && !hbmHeld s.pkg.hbm (writePas l))

/-- A command that is over takes its words. -/
def takeXfer (x : Xfer) (s t : State) : State :=
  if s.pkg.hbm.fetched.isEmpty then t
  else
    let (l, _, _) := runXfer x (s.withHbm { s.pkg.hbm with poison := [] })
    unfetch (readPas l) t

/-- An engine works on its next command (R216 to R221): once the words that it reads of HBM are delivered, it completes, or stops
at a permission or a severed region; a translation fault keeps it waiting for the MMP. -/
def serveXfer (e : Fin 2) (s : State) : State :=
  match nextXfer s e with
  | none => s
  | some x =>
    let (s, ready) := fetchXfer x s
    if !ready then s else
    takeXfer x s <| match runXfer x s with
    | (l, t, none) => finishXfer x l t
    | (l, t, some st) =>
      match stopCause st with
      | some (why, va) => stopXfer x why (va.getD (freeAddr s)) l t
      | none => s

/-- COPY_COMMAND_COMPLETE (R218). -/
def execCopyCommandComplete (e : Fin 2) (s : State) : Host.Outcome State Fault Refusal := event (serveXfer e s)

/-- A command for which the MMP has found no mapping stops (R221), once no collective operation has still to read what it
wrote before (R329). -/
def unmapXfer (x : Xfer) (va : W64) (s : State) : State :=
  let (l, t, _) := runXfer x s
  if ontoSource x s l then s else stopXfer x .unmapped va l t

/-- A command of the engine meets a condition of R221: the first that waits for the MMP has no mapping, or the one that is
served next is stopped. For poison, the element that carries it is the model's free choice; those before it have been
written. -/
def failXfer (e : Fin 2) (why : XferFault) (s : State) : State :=
  match why, frozenXfers s e with
  | .unmapped, (x, f) :: _ => unmapXfer x f.va s
  | _, _ =>
  match nextXfer s e with
  | none => s
  | some x =>
    let (l, t, st) := runXfer x s
    match why, st with
    | .poison, _ =>
      let k := (Config.freeWord s.tick).toNat % l.length
      match l[k]? with
      | some p => if p.src.isEmpty then s else stopXfer x .copyPoison p.va (l.take k) t
      | none => s
    | .unmapped, some (.trap .unmapped a) => stopXfer x .unmapped (a.getD (freeAddr s)) l t
    | .access, some (.trap .access a) => stopXfer x .access (a.getD (freeAddr s)) l t
    | .poolRegion, some (.trap .poolRegion a) => stopXfer x .poolRegion (a.getD (freeAddr s)) l t
    | _, _ => s

/-- COPY_COMMAND_FAULT (R221). -/
def execCopyCommandFault (e : Fin 2) (why : XferFault) (s : State) : Host.Outcome State Fault Refusal :=
  event (failXfer e why s)

/-! ## Status, cancel, tensor entries -/

/-- What `cp.stat` reads (R227). -/
def cpStatus (e : Fin 2) (s : State) : W64 :=
  BitVec.ofNat 64 ((s.c.cpDone[e]).toNat * 2 ^ 16 + (s.c.cpErr[e]).toNat * 2 ^ 12
    + (deferredOn s.c e).length * 2 ^ 6
    + engineLoad s e)

/-- `cp.stat` (R227): the status is sampled as the group finds it (R8). -/
def execCpStat (g : Fin 16) (e : Fin 2) (clr : Bool) (d : Reg) (s : State) : Host.Outcome State Fault Refusal :=
  guarded g s (fun s => do
    let s ← writeReg d (cpStatus e (atStart s)) (predTaint s.c (guardReg g)) 2 s
    .ok (if clr then s.withC { s.c with cpErr := s.c.cpErr.set e 0 } else s))

/-- `cp.cancel` (R228): an engine stops between commands, so none has a write left to make. -/
def execCpCancel (g : Fin 16) (e : Fin 2) (b : Src) (s : State) : Host.Outcome State Fault Refusal :=
  guarded g s (fun s => do
    let (y, _, s) ← srcS b s
    let hit (x : Xfer) : Bool := x.e = e && y.getLsbD (ctlPri x.sh)
    let s := dropGets (fun g => g.own.ctxid = s.c.id.ctxid && g.e = e && y.getLsbD g.pri) s
    let s := dropTiers (fun t => t.own.ctxid = s.c.id.ctxid && t.e = e && y.getLsbD t.pri) s
    .ok { s with
      c := { s.c with
        buf := s.c.buf.filter (fun b => match b with | .copy x => !hit x | _ => true)
        inputs := s.c.inputs.filter (fun x => !(hit x && s.core.xq.any (fun y => ownCopy s y && y.no = x.no && !y.refetch))) }
      core := { s.core with xq := s.core.xq.filter (fun x => !(ownCopy s x && hit x && !x.refetch)) } })

/-- `cp.tdef` (R229). -/
def execCpTdef (g : Fin 16) (a b : Src) (s : State) : Host.Outcome State Fault Refusal :=
  guarded g s (fun s => do
    let (x, y, _, s) ← srcSS a b s
    let tid := x.toNat % 1024
    need (y.toNat % 64 = 0) .misalign
    match regionAt s.c.regions false y.toNat 64 with
    | none => trapWith .bounds
    | some r =>
      soundBuf false (span (r.phys false y.toNat) 64) s
      let img := getBytes s.core.as (r.phys false y.toNat) 64
      let t := tensorOf img
      let (old, s) ← tensorEntry tid s
      let typed (u : Tensor) : Bool := u.space = 1 || u.space = 2
      need ((!t.desc.testBit 0 || t.ok) && !typed t && !typed old) .tensor
      let ea := s.c.a.tensbase + BitVec.ofNat 64 (64 * tid)
      if !addressOk false ea s then trapWith .address
      else
        let (pa, s) ← paOf (spaceOf ea) .write ea s
        let s ← bufferStore (cellsAt pa img) s
        .ok (sched (.tdef tid img) 1 s))

end Sys2Proof.Machine
end

