-- ==== Sys2Proof/Machine/Residency.lean ====
section
/-! DEFINITION. The residency table, its instructions and loads, and what array errors do (R263 to R285). -/

namespace Sys2Proof.Machine

/-! ## Formats and sizes -/

/-- The fields of a residency descriptor (R266). -/
def descRows (d : W32) : Nat := bitsOf d.toNat 31 16 + 1
def descPanels (d : W32) : Nat := bitsOf d.toNat 15 8 + 1
def descRl (d : W32) : Bool := d.getLsbD 5
def descBs (d : W32) : Bool := d.getLsbD 4
def descCode (d : W32) : Nat := bitsOf d.toNat 3 0

/-- A residency format: bytes of a panel row and panel width (R265). -/
def resFormat (code : Nat) (bs : Bool) : Option (Nat × Nat) :=
  match code, bs with
  | 0x9, false | 0xD, false | 0x3, false | 0x4, false | 0xE, false => some (128, 128)
  | 0x3, true => some (160, 128)
  | 0x5, true | 0xA, true => some (96, 128)
  | 0x1, false | 0x2, false => some (128, 64)
  | 0x0, false => some (256, 64)
  | 0x6, false => some (256, 32)
  | _, _ => none

/-- The row bytes and panel width of a descriptor. -/
def descRow (d : W32) : Nat := ((resFormat (descCode d) (descBs d)).getD (0, 0)).1
def descTn (d : W32) : Nat := ((resFormat (descCode d) (descBs d)).getD (0, 0)).2

/-- The descriptor's format is SP2. -/
def descSp2 (d : W32) : Bool := descCode d = 0xE && !descBs d

/-- The canopy size in granules of 32 KiB (R265). -/
def granules (d : W32) : Nat :=
  ceilDiv (256 + (if descSp2 d then 256 * descPanels d else 0) + descRows d * descPanels d * descRow d) 32768

/-- The length of the source image (R267). -/
def imageLen (d : W32) : Nat :=
  (if descSp2 d then 2 * descPanels d * descTn d else 0) + descRows d * descPanels d * descRow d

/-! ## Space and quota -/

/-- QUOTA's TENANT and LIMIT (R268). -/
def tenantOf (c : Ctx) : BitVec 8 := c.a.quota.extractLsb' 40 8
def limitOf (c : Ctx) : Nat := min (fieldOf c.a.quota 31 16) 256

/-- The granules charged to a tenant on the core (R268). -/
def quotaUsed (k : Core) (t : BitVec 8) : Nat :=
  ((k.res.filter (fun e => e.2.state ≠ .free && e.2.tenant = t)).map (fun e => granules e.2.desc)).sum

/-- The granules of the canopy in use (R269). -/
def canopyUsed (k : Core) : Nat := ((k.res.filter (fun e => e.2.space)).map (fun e => granules e.2.desc)).sum

/-- A residency may be evicted (R269). -/
def evictable (s : State) (e : ResEnt) : Bool :=
  (e.state = .ready || e.state = .stale) && e.space && e.pins = 0 && e.usecnt = 0
    && !(s.c.live && tenantOf s.c = e.tenant) && !(s.c2.live && tenantOf s.c2 = e.tenant)

/-- The contents and the watch go; the description and the charge stay (R269, R270). -/
def ResEnt.emptied (e : ResEnt) : ResEnt :=
  { e with state := .absent, space := false, watched := false, watch := [], seen := false, data := [] }

/-- The least recently used evictable residency. -/
def lruVictim (s : State) : Option Nat :=
  ((s.core.res.filter (fun e => evictable s e.2)).foldl (fun (b : Option (Nat × Nat)) e => match b with
    | none => some (e.1, e.2.used)
    | some (i, u) => if e.2.used < u then some (e.1, e.2.used) else some (i, u)) none).map Prod.fst

/-- Space for n granules, made by evicting the least recently used first; none where it stays short (R269). The first
argument bounds the number of evictions by the table's size. -/
def makeSpace : Nat → Nat → State → Option State
  | 0, n, s => if canopyUsed s.core + n ≤ 256 then some s else none
  | k + 1, n, s =>
    if canopyUsed s.core + n ≤ 256 then some s
    else match lruVictim s with
      | none => none
      | some i => makeSpace k n (setRes i (resEnt s.core i).emptied s)

/-! ## Handles -/

/-- The entry a handle names, where it is valid on the core (R263). -/
def validHandle (h : W64) (s : State) : Option Nat :=
  let i := handleIndex h
  let e := resEnt s.core i
  if e.state ≠ .free && e.state ≠ .revoked && e.tenant = h.extractLsb' 24 8 && e.gen = h.extractLsb' 0 16 then some i
  else none

/-- The entry that a residency instruction's handle names, or RESIDENCY_ABSENT (R273); `any` lets it name another
tenant's. -/
def handleOf (any : Bool) (h : W64) (s : State) : Res Nat :=
  match validHandle h s with
  | some i => if any || (resEnt s.core i).tenant = tenantOf s.c then .ok i else trapWith .residencyAbsent
  | none => trapWith .residencyAbsent

/-! ## Loads -/

/-- The range's parts by page: virtual address, physical address, length, as far as they translate (R149), and what
stops the rest. The first argument counts pages. -/
def rangeParts : Nat → W64 → Nat → State → List (Nat × Nat) × State × Option Stop
  | 0, _, _, s => ([], s, none)
  | k + 1, va, n, s =>
    let m := min n (2 ^ 16 - va.toNat % 2 ^ 16)
    if n = 0 then ([], s, none)
    else match (if addressOk false va s then paOf (spaceOf va) .read va s else trapAt .unmapped va) with
      | .error (.trap c _) => ([], s, some (.trap c (some va)))
      | .error e => ([], s, some e)
      | .ok (pa, s) =>
        let (l, s, e) := rangeParts k (va + BitVec.ofNat 64 m) (n - m) s
        ((pa, m) :: l, s, e)

/-- The parts of a residency's source under its owner's translation. -/
def sourceParts (e : ResEnt) (s : State) : List (Nat × Nat) × State × Option Stop :=
  let (l, t, st) := rangeParts (e.len / 2 ^ 16 + 2) (e.src.getD 0) e.len (asOwner e.own s)
  (l, { t with c := s.c }, st)

/-- The frames that a list of parts touches. -/
def framesOf (l : List (Nat × Nat)) : List Nat := l.map (fun p => alignDown p.1 (2 ^ 16))

/-- Entry i starts loading from a range (R270, R272, R275): the watch is placed and the frames are pinned, as far as the
range translates now. -/
def startLoad (i : Nat) (b : W64) (own : Owner) (transparent : Bool) (routine : Option Nat) (s : State) : State :=
  let e := resEnt s.core i
  let e := { e with
    state := .loading, src := some b, len := imageLen e.desc, space := true, watched := true, seen := false, data := []
    own := own, transparent := transparent, routine := routine, used := s.tick }
  let (l, s, _) := sourceParts e s
  let e := { e with watch := l, frames := framesOf l }
  setRes i e (s.withPkg (pinFrames e.frames s.pkg))

/-- The MMP has mapped a page of the source of entry i, which is LOADING: its frame is pinned with the others, and its
sectors are watched (R164, R272, R275). -/
def repinLoad (i : Nat) (s : State) : State :=
  let (l, t, _) := sourceParts (resEnt s.core i) s
  let e := resEnt t.core i
  if e.state ≠ .loading then s
  else
    let fs := framesOf l
    setRes i { e with watch := l, frames := fs } (t.withPkg (pinFrames fs (unpinFrames e.frames t.pkg)))

/-- Space for entry i: what it holds already, or what eviction makes (R269, R275). -/
def spaceFor (i : Nat) (s : State) : Option State :=
  let e := resEnt s.core i
  if e.space then some s else makeSpace 256 (granules e.desc) s

/-- A matrix check's reload of an absent, reloadable residency starts, for a direct operation or for one of a running
routine (R236, R270, R276); it waits while operations still read the lost contents. -/
def startReload (i : Nat) (routine : Option Nat) (s : State) : State :=
  let e := resEnt s.core i
  if 0 < e.usecnt then s
  else match e.state, e.src, spaceFor i s with
    | .absent, some b, some s => startLoad i b (ownerOf s) true routine s
    | _, _, _ => s

/-- The frames of entry i are unpinned as it leaves LOADING (R164, R270). -/
def unpinLoad (i : Nat) (s : State) : State :=
  let e := resEnt s.core i
  setRes i { e with frames := [] } (s.withPkg (unpinFrames e.frames s.pkg))

/-- A load stops (R270, R278): the entry is absent again and the trap is delivered late; the routine whose operation waited
for it stops, and what follows it is cancelled (R247). -/
def failLoad (i : Nat) (why : Cause) (va : W64) (s : State) : State :=
  let s := unpinLoad i s
  let e := resEnt s.core i
  let s := setRes i e.emptied s
  let waiting (s : State) : State := if s.c.routine.map (·.no) = e.routine then stopRoutine s else s
  let s := if e.transparent && e.routine.isSome then onOwner e.own waiting s else s
  lateTrap e.own ⟨why, va, e.transparent⟩ s

/-- The first poisoned word of a range's parts, as an offset in the range. -/
def poisonOffset (p : Pkg) : Nat → List (Nat × Nat) → Option Nat
  | _, [] => none
  | o, (pa, n) :: l =>
    match (List.range (ceilDiv n 64)).find? (fun j => poisoned p (pa + 64 * j)) with
    | some j => some (o + 64 * j)
    | none => poisonOffset p (o + n) l

/-- One address in each word of parts that start at words. -/
def wordsOf (l : List (Nat × Nat)) : List Nat := l.flatMap (fun p => (List.range (ceilDiv p.2 64)).map (fun j => p.1 + 64 * j))

/-- All bytes are written (R270, R272): once the words of HBM are delivered (R432), the entry is ready, or stale where a watched
write was performed after the watch of its sector; which of the two orders a write during the load had is free. -/
def completeLoad (i : Nat) (s : State) : State :=
  let e := resEnt s.core i
  if e.state ≠ .loading then s
  else match sourceParts e s with
    | (l, t, none) =>
      let t := fetchHbm (wordsOf l) t
      if !hbmReady t.pkg.hbm (wordsOf l) then t else
      let bad := poisonOffset t.pkg 0 l
      let t := unfetch (wordsOf l) t
      match bad with
      | some o => failLoad i .copyPoison (e.src.getD 0 + BitVec.ofNat 64 o) t
      | none =>
      let t := unpinLoad i t
      let data := l.flatMap (fun p => getBytes t.pkg.mem p.1 p.2)
      let late : Bool := e.seen && (Config.freeWord s.tick).getLsbD 0
      let e := { e with data := data, frames := [], seen := false }
      setRes i ({ e with state := if late then .stale else .ready, watch := l }) t
    | (_, _, some st) =>
      match stopCause st with
      | some (why, va) => failLoad i why (va.getD (freeAddr s)) s
      | none => s

/-- RESIDENCY_LOAD_COMPLETE (R270). -/
def execResidencyLoadComplete (i : Fin 256) (s : State) : Host.Outcome State Fault Refusal := event (completeLoad i.val s)

/-- The virtual address that a failing load reports: for poison, that of the poisoned word that the load has read, else where its
translation stops; where the model knows neither, one of its source's sectors (log 12). -/
def loadFaultVa (i : Nat) (why : XferFault) (s : State) : W64 :=
  let e := resEnt s.core i
  let sector := e.src.getD 0 + BitVec.ofNat 64 ((freeAddr s).toNat % (e.len / 64) * 64)
  match why, sourceParts e s with
  | .poison, (l, t, _) => match poisonOffset t.pkg 0 l with
    | some o => e.src.getD 0 + BitVec.ofNat 64 o
    | none => sector
  | .unmapped, (_, _, some (.freeze f)) => f.va
  | _, (_, _, some (.trap c (some a))) => if c = xferCause why then a else sector
  | _, _ => sector

/-- RESIDENCY_LOAD_FAIL (R278). -/
def execResidencyLoadFail (i : Fin 256) (why : XferFault) (s : State) : Host.Outcome State Fault Refusal :=
  event (if (resEnt s.core i.val).state = .loading then failLoad i.val (xferCause why) (loadFaultVa i.val why s) s else s)

/-! ## The instructions -/

/-- The lowest-numbered free entry (R274). -/
def freeEntry (k : Core) : Option Nat := (List.range 256).find? (fun i => (resEnt k i).state = .free)

/-- `res.alloc` (R274). -/
def execResAlloc (g : Fin 16) (d : Reg) (b : Src) (s : State) : Host.Outcome State Fault Refusal :=
  guarded g s (fun s => do
    let (y, t, s) ← srcS b s
    let desc : W32 := y.extractLsb' 0 32
    let ten := tenantOf s.c
    need (fieldOf y 7 6 = 0 && (resFormat (descCode desc) (descBs desc)).isSome) .format
    let n := granules desc
    need (quotaUsed s.core ten + n ≤ limitOf s.c) .quota
    match freeEntry s.core with
    | none => trapWith .quota
    | some i =>
      match makeSpace 256 n s with
      | none => trapWith .canopyFull
      | some s =>
        let e := resEnt s.core i
        let s := setRes i { ResEnt.freed e.gen with state := .absent, tenant := ten, desc := desc, space := true, used := s.tick } s
        writeReg d (BitVec.ofNat 64 (ten.toNat * 2 ^ 24 + i * 2 ^ 16 + e.gen.toNat)) (t || predTaint s.c (guardReg g)) 1 s)

/-- A load or reload of entry i from a checked address (R275, R276). -/
def loadFrom (i : Nat) (b : W64) (tainted : Bool) (s : State) : Res State := do
  let e := resEnt s.core i
  need (e.state = .absent || e.state = .ready || e.state = .stale) .residencyAbsent
  match spaceFor i s with
  | none => trapWith .canopyFull
  | some s =>
    engineReady tainted s
    if 0 < e.usecnt then waitRoom else .ok (startLoad i b (ownerOf s) false none s)

/-- `res.load` (R275). -/
def execResLoad (g : Fin 16) (a b : Src) (s : State) : Host.Outcome State Fault Refusal :=
  guarded g s (fun s => do
    let (x, y, t, s) ← srcSS a b s
    need (nodeOf y = 0 && (spaceOf y = 0 || spaceOf y = 2)) .address
    need (y.toNat % 256 = 0) .misalign
    let i ← handleOf false x s
    loadFrom i y (t || predTaint s.c (guardReg g)) s)

/-- `res.reload` (R276). -/
def execResReload (g : Fin 16) (a : Src) (s : State) : Host.Outcome State Fault Refusal :=
  guarded g s (fun s => do
    let (x, t, s) ← srcS a s
    let i ← handleOf false x s
    match (resEnt s.core i).src with
    | none => trapWith .residencyAbsent
    | some b => loadFrom i b (t || predTaint s.c (guardReg g)) s)

/-- `res.pin` (R277); QUOTA comes before RESIDENCY_ABSENT (log 111). -/
def execResPin (g : Fin 16) (a : Src) (s : State) : Host.Outcome State Fault Refusal :=
  guarded g s (fun s => do
    let (x, _, s) ← srcS a s
    let i ← handleOf false x s
    let e := resEnt s.core i
    need (e.pins ≠ 65535) .quota
    need (e.state ≠ .absent || (descRl e.desc && e.src.isSome)) .residencyAbsent
    let s ← match e.state, e.src with
      | .absent, some b => loadFrom i b false s
      | _, _ => .ok s
    let e := resEnt s.core i
    .ok (setRes i { e with pins := e.pins + 1 } s))

/-- `res.unpin` (R277). -/
def execResUnpin (g : Fin 16) (all : Bool) (a : Src) (s : State) : Host.Outcome State Fault Refusal :=
  guarded g s (fun s => do
    let (x, _, s) ← srcS a s
    let i ← handleOf false x s
    let e := resEnt s.core i
    .ok (setRes i { e with pins := if all then 0 else e.pins - 1 } s))

/-- `res.revoke` (R278). -/
def execResRevoke (g : Fin 16) (a : Src) (s : State) : Host.Outcome State Fault Refusal :=
  guarded g s (fun s => do
    let (x, _, s) ← srcS a s
    let i ← handleOf s.c.id.sup x s
    let s := unpinLoad i s
    let e := resEnt s.core i
    .ok (setRes i (settleRes { e with state := .revoked, watched := false, watch := [], pins := 0 }) s))

/-- The state code of an entry (R279). -/
def resCode (e : ResEnt) : Nat :=
  match e.state with
  | .free => 0 | .absent => 1 | .loading => 2 | .ready => if 0 < e.pins then 4 else 3 | .stale => 5 | .revoked => 6

/-- What `res.q` reads (R279). -/
def resStatus (h : W64) (s : State) : W64 :=
  let no : W64 := 6
  match validHandle h s with
  | none => no
  | some i =>
    let e := resEnt s.core i
    if !s.c.id.sup && e.tenant ≠ tenantOf s.c then no
    else BitVec.ofNat 64 (e.pins % 2 ^ 16 * 2 ^ 48 + (descRows e.desc - 1) * 2 ^ 32 + (descPanels e.desc - 1) * 2 ^ 24
      + descCode e.desc * 2 ^ 12 + (descBs e.desc).toNat * 2 ^ 11 + (descRl e.desc).toNat * 2 ^ 10 + 2 ^ 9
      + e.watched.toNat * 2 ^ 8 + resCode e)

/-- `res.q` (R279). -/
def execResQ (g : Fin 16) (d : Reg) (b : Src) (s : State) : Host.Outcome State Fault Refusal :=
  guarded g s (fun s => do
    let (y, t, s) ← srcS b s
    writeReg d (resStatus y (atStart s)) (t || predTaint s.c (guardReg g)) 1 s)

/-! ## Array errors and compare mode -/

/-- The reloads that a run of compare mode waits for are over (R282); one whose entry still holds operations of the other
context starts once they are performed. -/
def compareLoads (s : State) : State :=
  match s.c.compare with
  | none => s
  | some r =>
    let left := r.loads.filter (fun i => (resEnt s.core i).state = .absent || (resEnt s.core i).state = .loading)
    let s := left.foldl (fun s i => startReload i none s) s
    s.withC { s.c with compare := some { r with loads := left.filter (fun i => (resEnt s.core i).state = .loading || 0 < (resEnt s.core i).usecnt) } }

/-- An array error of the running context (R281, R282): consumption in the phase, which aborts an emitted phase and
otherwise starts compare mode with run A; in compare mode, or where Reruns leaves no room for it, the ordinary rule. -/
def arrayFault (s : State) : State :=
  let s := { s with grp := { s.grp with pc := s.c.a.pc } }
  if s.c.emitted || s.c.reruns ≠ 0 then consumeError (freeAddr s) s
  else
    let named := s.c.named
    let s := rollback s
    let s := named.foldl (fun s i => startReload i none s) s
    s.withC { s.c with reruns := 1, compare := some ⟨false, false, named, 0, [], 0, none⟩, named := [] }

/-- An uncorrectable canopy word loses its residency (R270, R281). An operation whose check has passed still reads the
contents as loaded (R236). -/
def canopyLoss (i : Nat) (s : State) : State :=
  let e := resEnt s.core i
  if e.state = .ready || e.state = .stale then setRes i { e.emptied with data := e.data } s else s

/-- Compare mode has failed (R282): the core joins the cullet, and the context leaves it at the checkpoint. -/
def compareFails (s : State) : State :=
  let s := rollOut (s.withPkg (joinCullet Config.coreId s.pkg))
  s.withC { s.c with compare := none }

/-- An array error strikes the context whose matrix work is being performed (R281, R282). -/
def arrayStrikes (s : State) : State :=
  let hit (s : State) : State := if s.c.compare.isSome then compareFails s else arrayFault s
  if mxBusy s.c then hit s else if mxBusy s.c2 then inOther hit s else s

/-- A byte of a typed buffer can no longer be corrected: what reads it consumes poison, until it is written (R184, log 107). -/
def spoilBuf (cb : Bool) (off : Nat) (k : Core) : Core := { k with bad := (cb, off) :: k.bad.filter (fun b => b ≠ (cb, off)) }

/-- ARRAY_ERROR (R281, R285): each error of the array and the canopy counts, one that is corrected does no more, and an
uncorrectable canopy word loses its residency; a byte of AS or CB is poisoned (R184). -/
def execArrayError (e : ArrayError) (s : State) : Host.Outcome State Fault Refusal :=
  let counted := s.withPkg (countError Config.coreId s.pkg)
  event (match e with
    | .corrected => counted
    | .canopy i => arrayStrikes (canopyLoss i.val counted)
    | .residue => arrayStrikes counted
    | .buffer cb off => s.withCore (spoilBuf cb off s.core))

/-- A failure that the error checkers attribute to one unit of a pair narrows the core; the context resumes there, or, where
the core is retired, elsewhere (R283). -/
def narrowAfter (vector : Bool) (u : Fin 2) (s : State) : State :=
  let s := rollback (s.withPkg (narrowTo Config.coreId vector u s.pkg))
  s.withC { s.c with compare := none, saving := s.pkg.retired.contains Config.coreId }

/-- A run of compare mode has stopped (R282, R283): run A is recorded and discarded by a second rollback, and run B starts.
After run B the context goes on where the two array clk counts and signatures match and no checker has seen an error;
otherwise the failure narrows the core, or sends it to the cullet. -/
def endRun (r : CompareEnd) (s : State) : State :=
  match s.c.compare with
  | none => s
  | some c =>
    if !c.stopped then s
    else if !c.runB then
      let s := rollback s
      s.withC { s.c with reruns := 2, compare := some ⟨true, false, [], 0, [], 0, some (c.clk, c.sig)⟩ }
    else match r with
      | .agree => if c.runA = some (c.clk, c.sig) then s.withC { s.c with compare := none } else compareFails s
      | .vectorUnit u => narrowAfter true u s
      | .copyUnit u => narrowAfter false u s
      | .other => compareFails s

/-- COMPARE_MODE_RUN_END (R282). -/
def execCompareModeRunEnd (r : CompareEnd) (s : State) : Host.Outcome State Fault Refusal :=
  event (if s.c.compare.isSome then endRun r s else inOther (endRun r) s)

/-- CULLET_CLEAR: the supervisor returns a core to general work (R285). -/
def execCulletClear (c : BitVec 8) (s : State) : Host.Outcome State Fault Refusal :=
  event (s.withPkg { s.pkg with cullet := s.pkg.cullet.filter (fun x => x ≠ c) })

end Sys2Proof.Machine
end

