-- ==== Sys2Proof/Machine/Mmp.lean ====
section
/-! DEFINITION. What the management processors do for memory: translation faults, pagers, freezes, migration, clearing, and
the ports of the pool and the host (R157, R161 to R165, R422). -/

namespace Sys2Proof.Machine

/-! ## What the package's tables hold -/

/-- The places of the PTEs below a table that end a walk, each with the size it maps as a power of two, and the tables
themselves, among the entries that are not zero (R146). -/
def leafPlaces (mem : Cells) : List (Nat × Nat) → Nat → List (Nat × Nat) × List (Nat × Nat)
  | [], _ => ([], [])
  | (lo, w) :: rest, table =>
    let places := ((cellsIn mem table (8 * 2 ^ w)).map (fun c => alignDown c.1 8)).eraseDups
    let found := places.map (fun pa =>
      let pte := getNum mem pa 8
      if !pteValid pte then ([], [])
      else if rest.isEmpty || pteLeaf pte then ([(pa, lo)], [])
      else leafPlaces mem rest (pteFrame pte))
    (found.flatMap Prod.fst, (table, 8 * 2 ^ w) :: found.flatMap Prod.snd)

/-- The environments that the package's work uses. -/
def envsInUse (s : State) : List Nat :=
  (s.pkg.saved.map (fun v => v.task.env) ++ s.pkg.disp.toList.flatMap (fun d => d.queue.map (·.env) ++ d.lwenv.toList.map BitVec.toNat)
    ++ ([s.c, s.c2].filter (·.live)).map (fun c => c.id.ctxenv.toNat) ++ s.pkg.others.map (·.task.env)).eraseDups

/-- The root registers that the package's work translates through: those of the resident contexts, of the environments in
use, and RWROOT. -/
def rootsInUse (s : State) : List W64 :=
  let ctx (c : Ctx) : List W64 := [c.a.ptroot, c.a.ptpool, c.a.pthost, c.a.pmroot]
  (ctx s.c ++ ctx s.c2 ++ [s.pkg.fab.rwroot] ++ (envsInUse s).flatMap (fun e => [0, 1, 2, 3].map (envReg s.pkg e))).eraseDups

/-- The table that a root register names. -/
def rootTable (r : W64) : Nat := bitsOf r.toNat 51 17 * 2 ^ 17

/-- The page tables in use: the places of their leaves and the tables. -/
def tablesInUse (s : State) : List (Nat × Nat) × List (Nat × Nat) :=
  let l := ((rootsInUse s).filter (fun r => r.getLsbD 0)).map (fun r => leafPlaces s.pkg.mem levels (rootTable r))
  ((l.flatMap Prod.fst).eraseDups, (l.flatMap Prod.snd).eraseDups)

/-- The tiled tensors in use, each with the PTROOT, PTPOOL and PTHOST it is read through: the entries of the tensor tables
of the resident contexts and of the environments in use, what `cp.tdef` defined, and the snapshots of copy commands. -/
def tiledInUse (s : State) : List (Tensor × (Nat → W64)) :=
  let roots (a b c : W64) (space : Nat) : W64 := if space = 0 then a else if space = 2 then b else c
  let table (r : Nat → W64) (base : W64) : List (Tensor × (Nat → W64)) :=
    (List.range 1024).filterMap (fun i => match dispPa s.pkg (r 0) (base + BitVec.ofNat 64 (64 * i)) with
      | .ok pa => some (tensorOf (getBytes s.pkg.mem pa 64), r)
      | .error _ => none)
  let ctx (c : Ctx) : List (Tensor × (Nat → W64)) :=
    let r := roots c.a.ptroot c.a.ptpool c.a.pthost
    let held (x : Xfer) : List (Tensor × (Nat → W64)) := [(x.src, r), (x.dst, r)]
    let copies := c.buf.flatMap (fun b => match b with | .copy x => held x | _ => [])
    table r c.a.tensbase ++ c.tdefs.map (fun d => (tensorOf d.2, r)) ++ copies ++ (c.inputs ++ c.prevInputs).flatMap held
  let env (e : Nat) : List (Tensor × (Nat → W64)) :=
    let g (i : Nat) : W64 := envReg s.pkg e i
    table (roots (g 0) (g 1) (g 2)) (g 4)
  let queued := s.core.xq.flatMap (fun x =>
    let r := roots x.own.ptroot x.own.ptpool x.own.pthost
    [(x.src, r), (x.dst, r)])
  ((if s.c.live then ctx s.c else []) ++ (if s.c2.live then ctx s.c2 else []) ++ (envsInUse s).flatMap env ++ queued).filter
    (fun x => x.1.ok && x.1.space = 0 && x.1.tiled)

/-- The places of the valid PTEs of a tiled tensor's table, each with the size it maps (R147, R151). -/
def tilePlaces (mem : Cells) (t : Tensor) (root : Nat → W64) : List (Nat × Nat) :=
  let n := ((List.range t.rank).map (fun d => ceilDiv (t.ext.getD d 0) (2 ^ t.til.getD d 0))).foldl (· * ·) 1
  (List.range n).filterMap (fun i =>
    let va := BitVec.ofNat 64 (t.base + 8 * i)
    match walkRoot mem (root (spaceOf va)) (va.toNat % 2 ^ 48) with
    | .leaf pte log =>
      let pa := leafPa pte log (va.toNat % 2 ^ 48)
      let tile := getNum mem pa 8
      if pteValid tile then some (pa, tileLog tile) else none
    | .missing _ _ => none)

/-- The PTEs in use that map pages, in page tables and in tile tables, each with the size it maps. -/
def leavesInUse (s : State) : List (Nat × Nat) :=
  ((tablesInUse s).1 ++ (tiledInUse s).flatMap (fun x => tilePlaces s.pkg.mem x.1 x.2)).eraseDups

/-- The first byte of what a PTE maps. -/
def leafBase (mem : Cells) (x : Nat × Nat) : Nat := alignDown (pteFrame (getNum mem x.1 8)) (2 ^ x.2)

/-- Bytes that something names by physical address, and no PTE: page tables, environment records, the abort ring, the
emergency areas, launch words and rings of pagers. The MMP, which allots them, migrates none of them (log 89). -/
def fixedRanges (s : State) : List (Nat × Nat) :=
  (tablesInUse s).2 ++ (envsInUse s).map (fun e => (e, 96)) ++ [(s.pkg.abortring.toNat % 2 ^ 52 / 2 ^ 12 * 2 ^ 12, 4096),
    (bitsOf s.pkg.emergbase.toNat 51 16 * 2 ^ 16, 256 * Config.saveSize)] ++ s.pkg.pagers.flatMap (fun p => [(p.launch, 8), (p.queue, 32 * p.slots)])

/-- Two ranges, each as its first byte and its length, do not meet. -/
def apart (a m b n : Nat) : Bool := a + m ≤ b || b + n ≤ a

/-- A range of HBM touches a pseudo-channel that is out of use, whose frames the allocator no longer has (R425). -/
def rangeGone (h : Hbm) (a n : Nat) : Bool :=
  (List.range (n / 2 ^ 30 + 2)).any (fun i => let x := max a (alignDown a (2 ^ 30) + i * 2 ^ 30)
    x < a + n && paGone h x)

/-- A range of n bytes that the MMP's allocator may hand out: aligned to n, in memory that exists, in no channel that is out of
use, and neither mapped, pinned, reserved, migrating nor named by physical address (R161, R164, R425, log 9). -/
def rangeFree (s : State) (a n : Nat) : Bool :=
  a % n = 0 && paExists a && !rangeGone s.pkg.hbm a n
    && s.pkg.pins.all (fun e => apart a n e.1 (2 ^ 16)) && s.pkg.tickets.all (fun t => apart a n t.2.2 (2 ^ 16))
    && s.pkg.migrating.all (fun f => apart a n f (2 ^ 16)) && (fixedRanges s).all (fun r => apart a n r.1 r.2)
    && (leavesInUse s).all (fun x => apart a n (leafBase s.pkg.mem x) (2 ^ x.2))

/-- A range is cleared for a new owner (R157): what its bytes held before was committed to no address that maps it from now
on, so no read-only load finds it (R169). -/
def clearRange (a n : Nat) (p : Pkg) : Pkg :=
  { p with
    mem := zeroRange p.mem a n
    hist := p.hist.map (fun w => w.filter (fun c => c.1 < a || a + n ≤ c.1)) }

/-! ## Mapping a frame -/

/-- The bytes that a PTE at a level maps, or the size of the table that it names (R146); the PTE of a tile maps what its PS
says (R147). -/
def pteSpan (pte level : Nat) : Nat :=
  if level = 4 then 2 ^ tileLog pte else
  let (lo, _) := levels.getD level (16, 5)
  if pteLeaf pte || level = 3 then 2 ^ lo else 8 * 2 ^ (levels.getD (level + 1) (16, 5)).2

/-- The MMP writes a PTE where a walk had stopped (R161); a frame or table of its own is cleared first (R157). -/
def mapPte (clear : Bool) (f : FaultRec) (pte : W64) (s : State) : State :=
  match f.ptePa with
  | none => s
  | some pa =>
    let n := pteSpan pte.toNat f.level
    let s := if clear then s.withPkg (clearRange (alignDown (pteFrame pte.toNat) n) n s.pkg) else s
    writeMem (cellsAt pa (bytesOf 8 pte.toNat)) s

/-- The PTE that the walk of a fault found (R161). -/
def foundPte (f : FaultRec) (s : State) : Nat := (f.ptePa.map (fun pa => getNum s.pkg.mem pa 8)).getD 0

/-! ## Who waits -/

/-- A client of the MMP: a resident context, a context switched out in a freeze, an engine, a residency load, a
dispatcher that reads task records, or a remote access at this home (R301). -/
inductive Client where
  | here (f : FaultRec)
  | there (f : FaultRec)
  | away (i : Nat) (f : FaultRec)
  | engine (x : Xfer) (f : FaultRec)
  | load (i : Nat) (f : FaultRec)
  | disp (f : FaultRec)
  | home (f : FaultRec)
deriving DecidableEq, Repr

/-- The fault that a client waits with. -/
def Client.fault : Client → FaultRec
  | .here f | .there f | .away _ f | .engine _ f | .load _ f | .disp f | .home f => f

/-- A residency load meets a translation fault. -/
def loadFault (s : State) (i : Nat) : Option Client :=
  match sourceParts (resEnt s.core i) s with
  | (_, _, some (.freeze f)) => some (.load i { f with access := 3 })
  | _ => none

/-- The entries that are loading. -/
def loadingEntries (k : Core) : List Nat := (k.res.filter (fun e => e.2.state = .loading)).map Prod.fst

/-- The fault of a spawn at which a context's commit waits (R384, R412). -/
def commitFault (c : Ctx) (p : Pkg) : Option FaultRec :=
  match c.commit.bind (·.rest.head?) with
  | some (.spawn va n) => spawnFault c p va n
  | _ => none

/-- The faults that the dispatchers' reads meet (R384, R388). -/
def dispFaults (s : State) : List FaultRec :=
  (commitFault s.c s.pkg).toList ++ (commitFault s.c2 s.pkg).toList
    ++ ([0, 1] : List (Fin 2)).flatMap (fun d => (List.finRange 16).filterMap (launchFault s.pkg (s.disp d)))

/-- All clients, in the order in which the model serves them. -/
def clients (s : State) : List Client :=
  (s.c.frozen.map Client.here).toList ++ (s.c2.frozen.map Client.there).toList
    ++ (s.pkg.saved.mapIdx (fun i v => v.fault.map (Client.away i))).filterMap id
    ++ ([0, 1] : List (Fin 2)).flatMap (fun e => (frozenXfers s e).map (fun x => Client.engine x.1 x.2))
    ++ (loadingEntries s.core).filterMap (loadFault s)
    ++ (dispFaults s).map Client.disp ++ s.pkg.fab.faults.map Client.home

/-- A pager is at work on the fault (R162). -/
def paged (s : State) (f : FaultRec) : Bool := s.pkg.tickets.any (fun t => t.2.1 = f)

/-- The next client to be served. -/
def nextClient (s : State) : Option Client := (clients s).find? (fun c => !paged s c.fault)

/-- A saved context replaced. -/
def setSaved (i : Nat) (v : Saved) (s : State) : State := s.withPkg { s.pkg with saved := setAt s.pkg.saved i v }

/-- The address space and the environment of the context that a client works for; a dispatcher works for none, and the
pagers of RWROOT are those of space 1 under ASID 0 (log 42). -/
def clientSpace (k : Client) (s : State) : Option (BitVec 12 × Nat) :=
  let env (ctx : W32) : Nat :=
    if s.c.live && s.c.id.ctxid = ctx then s.c.id.ctxenv.toNat
    else if s.c2.live && s.c2.id.ctxid = ctx then s.c2.id.ctxenv.toNat
    else ((s.pkg.saved.find? (fun v => v.id.ctxid = ctx)).map (·.task.env)).getD 0
  let own (o : Owner) : BitVec 12 × Nat := (o.asid.extractLsb' 0 12, env o.ctxid)
  match k with
  | .here _ => some (asidOf s.c.a, s.c.id.ctxenv.toNat)
  | .there _ => some (asidOf s.c2.a, s.c2.id.ctxenv.toNat)
  | .away i _ => (s.pkg.saved[i]?).map (fun v => ((envReg s.pkg v.task.env 6).extractLsb' 0 12, v.task.env))
  | .engine x _ => some (own x.own)
  | .load i _ => some (own (resEnt s.core i).own)
  | .disp _ => none
  | .home _ => some (0, 0)

/-- The pager registered for the region of a fault (R161), and whether the client is that pager itself, whose fault there is
serviced as unmapped (R162). The regions are those of the spaces that R144 gives a code; PM has none, so no pager is registered
for a page of PM (log 42). -/
def pagerOf (k : Client) (s : State) : Option (Nat × Pager × Bool) :=
  let f := k.fault
  (clientSpace k s).bind (fun (asid, env) =>
    let serves (p : Pager) : Bool := p.asid = asid && p.space = f.space && p.lo.ule f.va && f.va.ule p.hi
    (findIdx serves s.pkg.pagers).bind (fun i => (s.pkg.pagers[i]?).map (fun p => (i, p, decide (p.env = env)))))

/-- The 32 bytes of a fault record (R162). -/
def faultRecord (asid : BitVec 12) (f : FaultRec) (ticket : W32) (frame : Nat) : List Byte :=
  bytesOf 8 (f.va.toNat / 2 ^ 16 * 2 ^ 16) ++ bytesOf 2 asid.toNat ++ bytesOf 1 f.space ++ bytesOf 1 f.access
    ++ bytesOf 4 ticket.toNat ++ bytesOf 8 frame ++ bytesOf 8 0

/-- The size, as a power of two, of the frame that an upcall reserves: what the PTE of a tile maps, else 64 KiB (R147, R162,
log 103). -/
def upcallLog (f : FaultRec) (s : State) : Nat := if f.level = 4 then tileLog (foundPte f s) else 16

/-- The upcall (R162): a frame is reserved and cleared, the fault record is written into the pager's queue, and its launch
word is written. Nothing happens while the allocator has no free frame (log 9). -/
def upcall (i : Nat) (p : Pager) (f : FaultRec) (s : State) : State :=
  let n := 2 ^ upcallLog f s
  let frame := alignDown (Config.allocFrame s.tick n 0) n
  let ticket : W32 := BitVec.ofNat 32 s.tick
  if !rangeFree s frame n then s
  else
    let q := clearRange frame n s.pkg
    let s := s.withPkg { q with
      pagers := setAt q.pagers i { p with next := (p.next + 1) % p.slots }
      tickets := q.tickets ++ [(ticket, f, frame)] }
    let s := writeMem (cellsAt (p.queue + 32 * p.next) (faultRecord p.asid f ticket frame)) s
    writeMem (cellsAt p.launch (bytesOf 8 p.word.toNat)) s

/-- A fault at this home is over (R301). -/
def dropHomeFault (f : FaultRec) (s : State) : State :=
  s.withPkg { s.pkg with fab := { s.pkg.fab with faults := s.pkg.fab.faults.filter (fun x => x ≠ f) } }

/-- The client goes on: its context issues again, or may be resumed; a load pins the page (R161, R163, R275). -/
def goOn (k : Client) (s : State) : State :=
  match k with
  | .here _ => s.withC { s.c with frozen := none }
  | .there _ => inOther (fun s => s.withC { s.c with frozen := none }) s
  | .away i _ => match s.pkg.saved[i]? with
    | some v => setSaved i { v with fault := none, since := s.pkg.devtime } s
    | none => s
  | .load i _ => repinLoad i s
  | .home f => dropHomeFault f s
  | .engine _ _ | .disp _ => s

/-- The MMP has found no mapping and no backing: the context traps UNMAPPED, a command stops, a load fails, a record is
refused when it is taken, a remote access is answered with a NAK (R161, R221, R278, R301, R384). -/
def noMapping (k : Client) (s : State) : State :=
  match k with
  | .here f => s.withC { s.c with frozen := none, unmapped := f.va :: s.c.unmapped }
  | .there f => inOther (fun s => s.withC { s.c with frozen := none, unmapped := f.va :: s.c.unmapped }) s
  | .away _ _ => goOn k s
  | .engine x f => unmapXfer x f.va s
  | .load i f => failLoad i .unmapped f.va s
  | .disp f => s.withPkg { s.pkg with unbacked := f :: s.pkg.unbacked }
  | .home f =>
    let s := dropHomeFault f s
    s.withPkg { s.pkg with unbacked := f :: s.pkg.unbacked }

/-- MMP_FAULT_SERVICE (R161, R162). A frame maps a frame of its own, cleared, for a page that the host does not back; a host
page comes through the host port, which must be up (R422), its bytes being those that the frame holds by then; while the port is
down such a page has its backing still, and the client waits. Where the PTE has PG set, the pager registered for the region is
called, or, for a fault of that pager's own, the page is unmapped. -/
def serviceFault (found : MmpFind) (s : State) : State :=
  match nextClient s with
  | none => s
  | some k =>
    let f := k.fault
    let host := pteHB (foundPte f s)
    match found with
    | .frame pte =>
      let n := pteSpan pte.toNat f.level
      if pteValid pte.toNat && f.ptePa.isSome && !host && !rangeGone s.pkg.hbm (alignDown (pteFrame pte.toNat) n) n then
        goOn k (mapPte true f pte s)
      else s
    | .host pte => if pteValid pte.toNat && host && s.pkg.hostUp then goOn k (mapPte false f pte s) else s
    | .pager =>
      if !ptePG (foundPte f s) then s
      else match pagerOf k s with
        | none => s
        | some (i, p, own) => if own then noMapping k s else upcall i p f s
    | .nothing => if host && !s.pkg.hostUp then s else noMapping k s

def execMmpFaultService (found : MmpFind) (s : State) : Host.Outcome State Fault Refusal := event (serviceFault found s)

/-- The rights and the software bits of a PTE that is not valid (R147). -/
def pteRights (old : Nat) : W64 := BitVec.ofNat 64 old &&& 0xFFEE

/-- The PTE of a page that its pager has filled: the reserved frame under the rights the PTE had (R147, R162). -/
def pagedPte (old frame : Nat) : W64 := pteRights old ||| BitVec.ofNat 64 (1 + frame % 2 ^ 52 / 2 ^ 16 * 2 ^ 16)

/-- The entries of new tables, one a level from the top, that lead to the page of an offset: every other entry keeps the rights,
and is not valid (R146, log 103). -/
def tableCells (off : Nat) (rights leaf : W64) : List ((Nat × Nat) × Nat) → Cells
  | [] => []
  | ((lo, w), t) :: l =>
    let next := match l with
      | [] => leaf
      | (_, u) :: _ => BitVec.ofNat 64 (u + 1)
    (List.range (2 ^ w)).flatMap (fun i =>
      cellsAt (t + 8 * i) (bytesOf 8 (if i = off / 2 ^ lo % 2 ^ w then next else rights).toNat))
      ++ tableCells off rights leaf l

/-- The page that a pager has filled is mapped (R162): where its walk stopped above level 3, through new tables, each in a cleared
frame of the MMP (log 103); none while the allocator has no free frames for them. -/
def mapPaged (f : FaultRec) (frame : Nat) (s : State) : Option State :=
  let old := foundPte f s
  if 3 ≤ f.level then some (mapPte false f (pagedPte old frame) s)
  else
    let ts := (List.range (3 - f.level)).map (fun k => alignDown (Config.allocFrame s.tick (2 ^ 16) (k + 1)) (2 ^ 16))
    if !(ts.all (fun t => rangeFree s t (2 ^ 16)) && ts.Nodup) then none
    else
      let s := s.withPkg (ts.foldl (fun p t => clearRange t (2 ^ 16) p) s.pkg)
      let s := writeMem (tableCells (f.va.toNat % 2 ^ 48) (pteRights old) (pagedPte old frame)
        ((levels.drop (f.level + 1)).zip ts)) s
      some (mapPte false f (BitVec.ofNat 64 (ts.headD 0 + 1)) s)

/-- PAGER_COMPLETION (R162): the frame of the ticket is mapped and the faulting client goes on. -/
def completePager (n : W32) (s : State) : State :=
  match s.pkg.tickets.find? (fun t => t.1 = n) with
  | none => s
  | some t =>
    let f := t.2.1
    let k := (clients s).find? (fun c => c.fault = f)
    match mapPaged f t.2.2 s with
    | none => s
    | some s =>
      let s := s.withPkg { s.pkg with tickets := s.pkg.tickets.filter (fun u => u.1 ≠ n) }
      match k with
      | some k => goOn k s
      | none => s

def execPagerCompletion (n : W32) (s : State) : Host.Outcome State Fault Refusal := event (completePager n s)

/-! ## Freezes -/

/-- The running context's freeze has lasted LIMIT ns and its phase is not emitted: it is rolled back and switched out,
and becomes resumable when the MMP completes the fault (R163). -/
def endFreeze (s : State) : State :=
  let limit := s.pkg.freezemax.toNat % 2 ^ 32
  match s.c.frozen with
  | none => s
  | some f =>
    if s.c.emitted || s.c.saving || limit = 0 || (s.pkg.devtime - s.c.frozenSince).toNat < limit then s
    else
      let s := rollOut s
      s.withC { s.c with frozen := some f }

/-- FREEZE_LIMIT (R163). -/
def execFreezeLimit (s : State) : Host.Outcome State Fault Refusal := event (inOther endFreeze (endFreeze s))

/-! ## Clearing -/

/-- The clearing of the running context's regions has finished (R157). -/
def finishClearing (s : State) : State := if s.c.clearing then s.withC { s.c with clearing := false } else s

/-- CLEARING_COMPLETE (R157). -/
def execClearingComplete (s : State) : Host.Outcome State Fault Refusal :=
  event (if s.c.clearing then finishClearing s else inOther finishClearing s)

/-! ## Migration (R164) -/

/-- The size, as a power of two, of the page that holds a frame: the largest that a PTE over it maps. -/
def pageLog (s : State) (frame : Nat) : Nat :=
  (leavesInUse s).foldl (fun n x => if leafBase s.pkg.mem x = alignDown frame (2 ^ x.2) then max n x.2 else n) 16

/-- The frames of a page. -/
def pageFrames (base log : Nat) : List Nat := (List.range (2 ^ (log - 16))).map (fun i => base + i * 2 ^ 16)

/-- A page may be chosen as the source of a migration: none of its frames is pinned, in flight or being migrated, and
nothing in it is named by physical address (R164, R216). -/
def mayMigrate (base log : Nat) (s : State) : Bool :=
  let flying := flyingFrames s
  (pageFrames base log).all (fun f => pinsOf s.pkg f = 0 && !flying.contains f && !s.pkg.migrating.contains f)
    && (fixedRanges s).all (fun r => apart base (2 ^ log) r.1 r.2)

/-- PAGE_MIGRATION_START: accesses to the page that holds the frame wait from here on. -/
def execPageMigrationStart (frame : Nat) (s : State) : Host.Outcome State Fault Refusal :=
  let log := pageLog s frame
  let base := alignDown frame (2 ^ log)
  event (if frame % 2 ^ 16 ≠ 0 || !mayMigrate base log s then s
    else s.withPkg { s.pkg with migrating := s.pkg.migrating ++ pageFrames base log })

/-- What moves where: the page's first byte, its size, and the first byte of its new home. -/
structure Move where
  old : Nat
  len : Nat
  new : Nat
deriving DecidableEq, Repr

/-- The address at its new home. -/
def movedTo (m : Move) (pa : Nat) : Nat := if m.old ≤ pa && pa < m.old + m.len then pa - m.old + m.new else pa

/-- The addresses of bytes at their new home. -/
def movedCells (m : Move) (w : Cells) : Cells := w.map (fun c => (movedTo m c.1, c.2))

/-- A buffered store, or the source of a put, at its new home. -/
def movedBuf (m : Move) : Buffered → Buffered
  | .store w => .store (movedCells m w)
  | .message cn nt op off src len => .message cn nt op off (src.map (movedTo m)) len
  | b => b

/-- The bytes that a load collects, at their new home. -/
def movedBytes (m : Move) (l : List (Nat × LByte)) : List (Nat × LByte) :=
  l.map (fun b => (b.1, match b.2 with | .mem pa => .mem (movedTo m pa) | x => x))

/-- An outstanding operation at its new home. -/
def movedOp (m : Move) (o : MemOp) : MemOp :=
  { o with kind := match o.kind with
    | .load l => .load (movedBytes m l)
    | .loadRo l b i => .loadRo (movedBytes m l) b i
    | .atom op pa b e => .atom op (movedTo m pa) b e
    | k => k }

/-- A fault at its new home. -/
def movedFault (m : Move) (f : FaultRec) : FaultRec := { f with ptePa := f.ptePa.map (movedTo m) }

/-- What a context holds by physical address, at its new home. -/
def movedCtx (m : Move) (c : Ctx) : Ctx :=
  { c with
    buf := c.buf.map (movedBuf m)
    ops := c.ops.map (movedOp m)
    frozen := c.frozen.map (movedFault m)
    commit := c.commit.map (fun r => { r with rest := r.rest.map (movedBuf m) }) }

/-- A residency's watch and frames at their new home. -/
def movedRes (m : Move) (e : ResEnt) : ResEnt :=
  { e with watch := e.watch.map (fun r => (movedTo m r.1, r.2)), frames := e.frames.map (movedTo m) }

/-- The words that cannot be corrected are so at their new home, too; the cells of the others stay where they are (log 7). -/
def movedHbm (m : Move) (h : Hbm) : Hbm :=
  let home (w : Nat) : Nat := movedTo m (64 * w) / 64
  { h with
    poison := h.poison.map home
    cells := h.cells.foldl (fun t e => put t (if 2 ≤ e.2.length then home e.1 else e.1) e.2) [] }

/-- A page's bytes at its new home, and every PTE over a part of it naming that (R164). -/
def movePage (m : Move) (s : State) : State :=
  let inside := (leavesInUse s).filter (fun x =>
    let b := leafBase s.pkg.mem x
    m.old ≤ b && b + 2 ^ x.2 ≤ m.old + m.len)
  let ptes := inside.map (fun x => (x.1, getNum s.pkg.mem x.1 8 - m.old + m.new))
  let page := movedCells m (cellsIn s.pkg.mem m.old m.len)
  let p := clearRange m.new m.len s.pkg
  let mem := putCells (zeroRange p.mem m.old m.len) page
  let mem := ptes.foldl (fun t p => putBytes t (movedTo m p.1) (bytesOf 8 p.2)) mem
  { s with
    c := movedCtx m s.c
    c2 := movedCtx m s.c2
    core := { s.core with res := s.core.res.map (fun e => (e.1, movedRes m e.2)) }
    pkg := { s.pkg with
      mem := mem
      hist := p.hist.map (movedCells m)
      pins := p.pins.foldl (fun t e => put t (movedTo m e.1) e.2) []
      tlb := s.pkg.tlb.filter (fun e => movedTo m (pteFrame e.pte.toNat) = pteFrame e.pte.toNat)
      disp := s.pkg.disp.map (fun d => { d with
        queue := d.queue.map (fun t => { t with deps := t.deps.map (fun x => (movedTo m x.1, x.2)) }) })
      saved := s.pkg.saved.map (fun v => { v with fault := v.fault.map (movedFault m) })
      tickets := s.pkg.tickets.map (fun t => (t.1, movedFault m t.2.1, movedTo m t.2.2))
      streams := s.pkg.streams.map (fun e => (e.1, { e.2 with home := e.2.home.map (movedTo m) }))
      hbm := movedHbm m s.pkg.hbm
      migrating := s.pkg.migrating.filter (fun f => movedTo m f = f) } }

/-- PAGE_MIGRATION_END: the oldest migration ends at a new home. -/
def execPageMigrationEnd (new : Nat) (s : State) : Host.Outcome State Fault Refusal :=
  event (match s.pkg.migrating with
    | old :: _ =>
      let n := 2 ^ pageLog s old
      if new % n = 0 && paExists new && apart new n old n && !rangeGone s.pkg.hbm new n then movePage ⟨old, n, new⟩ s else s
    | [] => s)

/-- A page of a retired pseudo-channel that may move (R425). -/
def leavingPage (s : State) : Option (Nat × Nat) :=
  ((leavesInUse s).map (fun x => (leafBase s.pkg.mem x, x.2))).find? (fun x =>
    x.1 < 2 ^ 39 && s.pkg.hbm.retiredPc.contains (hbmPc x.1) && pageLog s x.1 = x.2 && mayMigrate x.1 x.2 s)

/-- The pages of the retired pseudo-channels migrate out, one at a time, as the allocator has free frames for them (R164, R425,
log 32). -/
def evacuate (s : State) : State :=
  if s.pkg.hbm.retiredPc.isEmpty then s
  else match leavingPage s with
    | none => s
    | some (old, log) =>
      let new := alignDown (Config.allocFrame s.tick (2 ^ log) 0) (2 ^ log)
      if rangeFree s new (2 ^ log) then movePage ⟨old, 2 ^ log, new⟩ s else s

/-! ## Ports -/

/-- POOL_LINK_LOST: the regions homed on the port are severed (R165); its retraining starts anew. -/
def execPoolLinkLost (port : Fin 2) (s : State) : Host.Outcome State Fault Refusal :=
  event (s.withPkg { s.pkg with poolUp := s.pkg.poolUp.set port false, poolTries := s.pkg.poolTries.set port 0 })

/-- POOL_PORT_RETRAIN (R422): one of at most 16 attempts. -/
def execPoolPortRetrain (port : Fin 2) (ok : Bool) (s : State) : Host.Outcome State Fault Refusal :=
  event (if s.pkg.poolUp[port] || 16 ≤ s.pkg.poolTries[port] then s
    else s.withPkg { s.pkg with
      poolUp := s.pkg.poolUp.set port ok
      poolTries := s.pkg.poolTries.set port (s.pkg.poolTries[port] + 1) })

/-- HOST_PORT_DOWN (R422): pages that the host backs can no longer be fetched. -/
def execHostPortDown (s : State) : Host.Outcome State Fault Refusal :=
  event (s.withPkg { s.pkg with hostUp := false, hostTries := 0 })

/-- HOST_PORT_RETRAIN (R422). -/
def execHostPortRetrain (ok : Bool) (s : State) : Host.Outcome State Fault Refusal :=
  event (if s.pkg.hostUp || 16 ≤ s.pkg.hostTries then s
    else s.withPkg { s.pkg with hostUp := ok, hostTries := s.pkg.hostTries + 1 })

/-- A byte that the host reaches while its port is up: HBM that the HDM range exposes, so no byte of a retired pseudo-channel or
stack (R420, R424, R425), and the host's own memory, space 3. -/
def hostReaches (p : Pkg) (pa : Nat) : Bool :=
  p.hostUp && (match pa / 2 ^ 48 with
    | 0 => pa < 2 ^ 39 && !paGone p.hbm pa
    | 3 => true
    | _ => false)

/-- HOST_CXL_MEM_WRITE: the host writes memory it reaches through its port, which counts as any write does (R271, R387, R420);
a write of a byte it does not reach changes nothing (log 100). -/
def execHostCxlMemWrite (pa : Nat) (data : List Byte) (s : State) : Host.Outcome State Fault Refusal :=
  event (if (List.range data.length).all (fun i => hostReaches s.pkg (pa + i)) then writeMem (cellsAt pa data) s else s)

/-- What the host reads through CXL.mem: committed data, of the bytes that it reaches (R420); a read changes nothing, and no rule
says what one beyond them gives (log 100). -/
def hostRead (pa n : Nat) (s : State) : Option (List Byte) :=
  if (List.range n).all (fun i => hostReaches s.pkg (pa + i)) then some (getBytes s.pkg.mem pa n) else none

end Sys2Proof.Machine
end

