-- ==== Sys2Proof/Machine/Fabric.lean ====
section
/-! DEFINITION. Links and their FIFOs, the ordered path, remote accesses at their home, and connections (R286 to R318). -/

namespace Sys2Proof.Machine

/-! ## Contexts by identity -/

/-- A late trap for a context, wherever it is. -/
def lateTo (ctx : W32) (c : Cause) (addr : W64) (s : State) : State :=
  lateTrap { Owner.none with ctxid := ctx } ⟨c, addr, false⟩ s

/-- A saved context is aborted (R394): its record names no group of the handler's, it is not resumed, what its connections
hold is dropped (R308), and with its lease go the words of the link queues (R298). -/
def abortSaved (cause : Cause) (v : Saved) (s : State) : State :=
  let s := writeAbort (abortRecord v.id.ctxid cause v.core (freeAddr s) 0 v.id.entry) s
  let s := dropItems v.id.ctxid (dropGets (fun g => g.own.ctxid = v.id.ctxid) s)
  let s := s.withPkg { s.pkg with
    saved := s.pkg.saved.filter (fun x => x.id.ctxid ≠ v.id.ctxid)
    areas := s.pkg.areas.filter (fun a => a ≠ (v.id.ctxenv.toNat, v.id.savebase.toNat))
    streams := streamsAtEnd v.id.ctxid v.regions s.pkg.devtime s.pkg.streams }
  let s := if v.id.lease && v.core = Config.coreId then
      s.withCore { s.core with recv := Vector.replicate 6 { words := [], rd := 0 }, send := Vector.replicate 6 [] }
    else s
  notifyAll v.id.ctxid v.id.gids s

/-- A context is aborted, wherever it is (R186, R394). -/
def abortCtx (ctx : W32) (cause : Cause) (addr : W64) (s : State) : State :=
  let here (s : State) : State := abort cause addr { s with grp := { s.grp with pc := s.c.a.pc } }
  if s.c.live && s.c.id.ctxid = ctx then here s
  else if s.c2.live && s.c2.id.ctxid = ctx then inOther here s
  else match s.pkg.saved.find? (fun v => v.id.ctxid = ctx) with
    | some v => abortSaved cause v s
    | none => s

/-! ## Channels that fail (R332) -/

/-- The channel of a collective packet (log 24): one whose members stand in the packages between which it goes. -/
def chanOfPacket (s : State) (q : Packet) : Option Nat :=
  let ch := q.aux.toNat % 256
  let member (n : BitVec 12) : Bool := (look s.pkg.chans ch).any (fun c => (memberPackages s (chGid c.ent)).any (fun p => p.1 = n.toNat))
  if q.kind = 13 && q.aux.getLsbD 63 && member q.src && member q.dst then some ch else none

/-- A context that waits on a channel, or whose group its DEPTH stalls, will trap with the channel number. -/
def failWaiter (ch : BitVec 8) (cause : Cause) (c : Ctx) : Ctx :=
  let on (w : Wait) : Bool := match w with | .chRecv h | .chWait h _ _ => h = ch | _ => false
  let held := match c.held with | some h => h.waits | none => []
  if c.live && (c.waits.any on || held.any on || c.chStall.contains ch) then
    { c with
      late := c.late ++ [⟨cause, ch.zeroExtend 64, false⟩]
      waits := c.waits.filter (fun w => !on w)
      held := c.held.map (fun h => { h with waits := h.waits.filter (fun w => !on w) })
      chStall := [] }
  else c

/-- A channel enters FAULT here: its operations stop, those among them that wait for a release (R332). -/
def faultChan (cause : Cause) (s : State) (ch : Nat) : State :=
  match look s.pkg.chans ch with
  | none => s
  | some c =>
    if c.fault then s
    else
      let s := setChan (BitVec.ofNat 8 ch) { c with fault := true, ops := c.ops.map (fun o => { o with waits := none }) } s
      { s with c := failWaiter (BitVec.ofNat 8 ch) cause s.c, c2 := failWaiter (BitVec.ofNat 8 ch) cause s.c2 }

/-- A member package cannot be reached. -/
def faultNode (node : BitVec 12) (s : State) : State :=
  let hit (x : Nat × Chan) : Bool :=
    chKind x.2.ent ≠ 0 && (memberPackages s (chGid x.2.ent)).any (fun p => p.1 = node.toNat && node ≠ s.pkg.nodeid)
  ((s.pkg.chans.filter hit).map Prod.fst).foldl (faultChan .nodeUnreachable) s

/-! ## Links -/

/-- A link enters FAILED (R296, R299, R332): its queued packets and FIFO words are discarded, the channels of discarded
packets enter FAULT, and the lease holder traps LINK_LOST, at its next resumption where it is switched out. -/
def linkFails (l : LinkNo) (s : State) : State :=
  let s := setLink l { s.pkg.links[l] with state := .failed, lanes := 0, streak := 0 } s
  let s := ((s.pkg.fab.held.filter (fun h => h.2 = some l)).filterMap (fun h => chanOfPacket s h.1)).foldl (faultChan .channel) s
  let s := s.withPkg { s.pkg with fab := { s.pkg.fab with held := s.pkg.fab.held.filter (fun h => h.2 ≠ some l) } }
  let s := s.withCore { s.core with send := s.core.send.set l [] }
  let lost : Late := ⟨.linkLost, BitVec.ofNat 64 l, false⟩
  let hit (s : State) : State := if s.c.live && s.c.id.lease then s.withC { s.c with late := s.c.late ++ [lost] } else s
  let s := inOther hit (hit s)
  s.withPkg { s.pkg with saved := s.pkg.saved.map (fun v =>
    if v.id.lease && v.core = Config.coreId then { v with late := v.late ++ [lost] } else v) }

/-- LINK_TRAINING_RESULT (R296). -/
def linkTrained (l : LinkNo) (lanes : Nat) (s : State) : State :=
  if !linkTrains s l then s
  else if 32 ≤ lanes then setLink l { s.pkg.links[l] with state := .up, lanes := 32, streak := 0 } s
  else if 16 ≤ lanes then setLink l { s.pkg.links[l] with state := .degraded, lanes := 16, streak := 0 } s
  else linkFails l s

def execLinkTrainingResult (l : LinkNo) (lanes : Nat) (s : State) : Host.Outcome State Fault Refusal :=
  event (linkTrained l lanes s)

/-- LINK_TRAINING_TIMEOUT: 2 ms have elapsed (R296). -/
def execLinkTrainingTimeout (l : LinkNo) (s : State) : Host.Outcome State Fault Refusal :=
  event (if linkTrains s l then linkFails l s else s)

/-! ## FIFO words (R299, R300) -/

/-- The free words of a receive queue. -/
def freeWords (q : RecvQ) : Nat := 256 - q.words.length

/-- The FLOW state of each receive queue: OFF below 64 free words, ON from 128. -/
def updateFlow (k : Core) : Core :=
  { k with flowOff := k.flowOff.mapIdx (fun i off =>
      let n := freeWords (k.recv.toList.getD i ⟨[], 0⟩)
      if n < 64 then true else if 128 ≤ n then false else off) }

/-- The node that a link leads to (R13). -/
def neighbour (p : Pkg) (l : LinkNo) : BitVec 12 :=
  let d := linkDim l
  let e := extent p.fab.bootExt d
  let c := coord p.nodeid d
  let next := (if linkPlus l then c + 1 else c + e - 1) % e
  BitVec.ofNat 12 (p.nodeid.toNat - c * 2 ^ (8 - 4 * d) + next * 2 ^ (8 - 4 * d))

/-- A packet that crosses one link: FIFO words or a FLOW signal (R287, R288). -/
def hopPacket (l : LinkNo) (kind cls : Nat) (aux : W64) (words : List W64) (s : State) : Packet where
  kind := kind
  cls := cls
  ver := s.pkg.fab.ver
  vc := false
  dst := neighbour s.pkg l
  src := s.pkg.nodeid
  scid := Config.coreId
  dcid := if kind = 9 then Config.coreId else 0
  cn := 0
  epoch := 0
  seq := 0
  poff := 0
  hops := 0
  addr := 0
  ctxid := s.c.id.ctxid
  aux := aux
  mark := false
  data := words.flatMap (fun x => bytesOf 8 x.toNat)

/-- The words in a send queue leave in FIFOW packets of up to 32, on a link that carries them, whose neighbour's queue takes
them and whose request channel is ON (R289, R299). -/
def drainLink (s : State) (l : LinkNo) : State :=
  let q := s.core.send[l]
  if q.isEmpty || !linkCarries s.pkg l || s.core.peerOff[l]
      || !isOn s.pkg.fab l 0 (channelOn s.pkg.fab.bootExt s.pkg.nodeid s.pkg.nodeid l) then s
  else
    let s := s.withCore { s.core with send := s.core.send.set l [] }
    (List.range ((q.length + 31) / 32)).foldl
      (fun s i => s.withPkg (queueOn l (hopPacket l 9 0 0 ((q.drop (32 * i)).take 32) s) s.pkg)) s

/-- All links. -/
def allLinks : List LinkNo := [0, 1, 2, 3, 4, 5]

/-- Every send queue drains. -/
def drainSend (s : State) : State := allLinks.foldl drainLink s

/-- The receive queues' FLOW states follow their free words, and a FLOW packet tells the neighbour of each change; AUX is 1
for ON (R288, R299, log 96). -/
def flowStep (s : State) : State :=
  let k := updateFlow s.core
  let changed := allLinks.filter (fun l => k.flowOff[l] ≠ s.core.flowOff[l])
  changed.foldl (fun s l =>
    s.withPkg (queueOn l (hopPacket l 12 2 (if k.flowOff[l] then 0 else 1) [] s) s.pkg)) (s.withCore k)

/-- FIFOW_ARRIVAL: words that came over link l reach its receive queue; a neighbour never sends more than fit. -/
def execFifowArrival (l : LinkNo) (words : List W64) (s : State) : Host.Outcome State Fault Refusal :=
  event (if !linkCarries s.pkg l || freeWords s.core.recv[l] < words.length then s
    else
      let q := s.core.recv[l]
      let s := flitPasses l s
      flowStep (s.withCore { s.core with recv := s.core.recv.set l { q with words := q.words ++ words } }))

/-- FLOW: the neighbour's receive queue is OFF or ON. -/
def execFlow (l : LinkNo) (on : Bool) (s : State) : Host.Outcome State Fault Refusal :=
  event (if !linkCarries s.pkg l then s
    else
      let s := flitPasses l s
      s.withCore { s.core with peerOff := s.core.peerOff.set l (!on) })

/-! ## The home of a remote access (R301) -/

/-- What a request meets at its home: a NAK's cause, or the physical address. A page of the host or of a pager that is not
in place keeps the request waiting, with a fault for the home's MMP; so does a page that migrates. -/
inductive Home where
  | pa (pa : Nat)
  | nak (c : Cause)
  | waits (f : Option FaultRec)
deriving DecidableEq, Repr

/-- The home translation of an offset through RWROOT: R, W or both; U and X are ignored. -/
def homePa (k : Access) (off : Nat) (s : State) : Home :=
  match walkRoot s.pkg.mem s.pkg.fab.rwroot off with
  | .leaf pte log =>
    let pa := leafPa pte log off
    let page := alignDown pa (2 ^ 16)
    if !permits k true pte then .nak .access
    else if !paExists pa || severed s.pkg pa then .nak .unmapped
    else if s.pkg.migrating.contains page then .waits none
    else .pa pa
  | .missing pa level =>
    let pte := (pa.map (fun a => getNum s.pkg.mem a 8)).getD 0
    let f : FaultRec := ⟨BitVec.ofNat 64 (2 ^ 60 + alignDown off (2 ^ 16)), 1, if k = .read then 0 else 1, pa, level⟩
    if (pteHB pte || ptePG pte) && !s.pkg.unbacked.contains f then .waits (some f) else .nak .unmapped

/-- The home places of n bytes from an offset: each byte's physical address, or the first NAK or wait. -/
def homeBytes (k : Access) (off : Nat) : Nat → State → Except Home (List Nat)
  | 0, _ => .ok []
  | n + 1, s =>
    match homePa k off s with
    | .pa pa => (homeBytes k (off + 1) n s).map (pa :: ·)
    | h => .error h

/-- The home has met no page yet: the MMP has a fault to service (R161, R301). -/
def homeWaits (h : Home) (s : State) : State :=
  match h with
  | .waits (some f) =>
    if s.pkg.fab.faults.contains f then s else s.withPkg { s.pkg with fab := { s.pkg.fab with faults := s.pkg.fab.faults ++ [f] } }
  | _ => s

/-- A packet of this package in answer to another (R287). -/
def answerTo (q : Packet) (kind cls : Nat) (aux : W64) (data : List Byte) (s : State) : Packet where
  kind := kind
  cls := cls
  ver := s.pkg.fab.ver
  vc := false
  dst := q.src
  src := s.pkg.nodeid
  scid := 0
  dcid := if kind = 6 || kind = 7 || kind = 8 then q.scid else 0
  cn := q.cn
  epoch := q.epoch
  seq := q.seq
  poff := q.poff
  hops := 0
  addr := 0
  ctxid := q.ctxid
  aux := aux
  mark := q.mark
  data := data

/-- The NAK of a request, with its cause (R301). -/
def nakPacket (q : Packet) (c : Cause) (s : State) : Packet := answerTo q 8 1 (BitVec.ofNat 64 (causeCode c)) [] s

/-- A NAK leaves; the MMP's answer that the page has no backing has served (R301). -/
def sendNak (q : Packet) (s : State) : State :=
  routePacket q (s.withPkg { s.pkg with unbacked := s.pkg.unbacked.filter (fun f => f.space ≠ 1) })

/-- A packet of a message, as its answers carry it: its connection's number, epoch and SEQ, and AUX [63] (log 96). A GETREQ
brings them in its AUX, with the length. -/
def asMessage (q : Packet) : Packet :=
  if q.kind = 5 then
    { q with cn := (q.aux.extractLsb' 28 4).toFin, epoch := q.aux.extractLsb' 24 4, seq := q.aux.extractLsb' 32 32 }
  else q
def messageFlag : W64 := 0x8000000000000000

/-- The NAK of a message's packet. -/
def messageNak (q : Packet) (c : Cause) (s : State) : Packet :=
  answerTo (asMessage q) 8 1 (messageFlag + BitVec.ofNat 64 (causeCode c)) [] s

/-- A DATA packet carries poison from its home (R184): AUX [62] marks it (log 96). -/
def poisonFlag (bad : Bool) : W64 := if bad then 0x4000000000000000 else 0

/-- The DATA packets that answer a GETREQ, each poisoned where a byte of it is (R184, R310, R316). -/
def getAnswer (q : Packet) (pas : List Nat) (s : State) : State :=
  (List.range (pas.length / 256)).foldl (fun t i =>
    let l := (pas.drop (256 * i)).take 256
    let aux := messageFlag ||| poisonFlag (l.any (poisoned s.pkg))
    routePacket { answerTo (asMessage q) 6 1 aux (l.map (getByte s.pkg.mem)) t with poff := i } t) s

/-- The atomic operation of an ATOM packet's AUX. -/
def atomOf (aux : W64) : Option AtomOp :=
  ([.add, .min, .max, .and, .or, .xor, .xchg, .cas] : List AtomOp).find? (fun o => atomCode o = aux.toNat)

/-- A request of the ordered path is performed at this home: loads, stores, atomics and GETREQs; what the other kinds do is
an event of their own. It is not accepted, the flag says, while it waits for a page, or for a word of HBM that it reads (R432). -/
def performRequest (q : Packet) (s : State) : Bool × State :=
  let n := q.aux.toNat
  let served (s : State) : Bool × State := (true, s)
  let answer (k : Access) (len : Nat) (f : List Nat → State → State) : Bool × State :=
    match homeBytes k q.addr len s with
    | .ok pas =>
      let read := if k = .write then [] else pas
      let s := fetchHbm read s
      if hbmReady s.pkg.hbm read then served (unfetch read (f pas s)) else (false, s)
    | .error (.nak c) => served (sendNak (if q.kind = 5 then messageNak q c s else nakPacket q c s) s)
    | .error h => (false, homeWaits h s)
  match q.kind with
  | 0 => answer .read n (fun pas s =>
      routePacket (answerTo q 6 1 (q.aux ||| poisonFlag (pas.any (poisoned s.pkg))) (pas.map (getByte s.pkg.mem)) s) s)
  | 1 => answer .write q.data.length (fun pas s => writeMem (pas.zip q.data) s)
  | 2 => match atomOf q.aux with
    | none => served s
    | some op => answer .both 8 (fun pas s =>
        let x := BitVec.ofNat 64 (ofBytes (pas.map (getByte s.pkg.mem)))
        let b := BitVec.ofNat 64 (ofBytes (q.data.take 8))
        let e := BitVec.ofNat 64 (ofBytes ((q.data.drop 8).take 8))
        let bad := pas.any (poisoned s.pkg)
        let s := match if bad then none else atomNew op x b e with
          | some y => writeMem (pas.zip (bytesOf 8 y.toNat)) s
          | none => s
        routePacket (answerTo q 6 1 (8 ||| poisonFlag bad) (bytesOf 8 x.toNat) s) s)
  | 5 => answer .read (n % 2 ^ 24) (getAnswer q)
  | _ => served s

/-- The acknowledgement of the ordered path: the last SEQ accepted (R303). -/
def pathAck (q : Packet) (last : W32) (s : State) : State := routePacket { answerTo q 7 1 0 [] s with seq := last } s

/-- ORDERED_PACKET_RECEIPT (R303): only the next SEQ of its source is accepted. -/
def receiveOrdered (q : Packet) (s : State) : State :=
  let want := (look s.pkg.fab.expect q.src.toNat).getD 0
  if q.dst ≠ s.pkg.nodeid then s
  else if q.seq ≠ want then pathAck q (want - 1) s
  else match performRequest q s with
    | (false, s) => s
    | (true, s) =>
      pathAck q want (s.withPkg { s.pkg with fab := { s.pkg.fab with expect := put s.pkg.fab.expect q.src.toNat (want + 1) } })

def execOrderedPacketReceipt (q : Packet) (s : State) : Host.Outcome State Fault Refusal := event (receiveOrdered q s)

/-! ## The source side of the ordered path -/

/-- x comes no later than y in serial order modulo 2³². -/
def serialLe (x y : W32) : Bool := !(y - x).msb

/-- ORDERED_ACK_RECEIPT: the packets up to SEQ are acknowledged (R303). -/
def execOrderedAckReceipt (node : BitVec 12) (seq : W32) (s : State) : Host.Outcome State Fault Refusal :=
  let p := pathTo s.pkg.fab node
  event (if p.unacked.any (fun x => x.1.seq = seq) then
      setPath node { p with unacked := p.unacked.filter (fun x => !serialLe x.1.seq seq), since := s.pkg.devtime } s
    else s)

/-- A duration of FABCFG in ns (R307). -/
def rtoNs (f : Fabric) : Nat := fieldOf f.fabcfg 47 32 * 1000
def tmoNs (f : Fabric) : Nat := fieldOf f.fabcfg 31 0 * 1000

/-- The time since a device time. -/
def age (s : State) (t : W64) : Nat := (s.pkg.devtime - t).toNat

/-! ## Messages of a connection -/

/-- The packets of a message (R288, R310, R312): puts of 256 bytes, or reduce packets with their tag; a get's request travels
on the ordered path. -/
def messagePackets (c : Conn) (m : Message) (s : State) : List Packet :=
  (List.range ((m.len + 255) / 256)).map (fun i =>
    { kind := if m.op.isSome then 3 else 4
      cls := 0
      ver := if m.op.isSome then m.ver else s.pkg.fab.ver
      vc := false
      dst := c.node
      src := s.pkg.nodeid
      scid := Config.coreId
      dcid := 0
      cn := c.cn
      epoch := c.epoch
      seq := m.seq
      poff := i
      hops := 0
      addr := (m.off + 256 * i) % 2 ^ 48
      ctxid := c.ctxid
      aux := if m.op.isSome then BitVec.ofNat 64 (m.phseq.toNat % 2 ^ 48 + m.index % 2 ^ 16 * 2 ^ 48) else 0
      mark := false
      data := (m.data.drop (256 * i)).take 256 })

/-- The request of a get (R287, R316): on the ordered path CN and EPOCH are 0, and AUX carries the length, and the EPOCH, CN
and SEQ of the connection's message for the DATA that answers (log 96). -/
def getRequest (c : Conn) (m : Message) (s : State) : Packet :=
  { kind := 5, cls := 0, ver := s.pkg.fab.ver, vc := false, dst := c.node, src := s.pkg.nodeid, scid := Config.coreId, dcid := 0
    cn := 0, epoch := 0, seq := 0, poff := 0, hops := 0, addr := m.off % 2 ^ 48, ctxid := c.ctxid
    aux := joinFields [(m.len, 0), (c.epoch.toNat, 24), (c.cn.val, 28), (m.seq.toNat, 32)], mark := false, data := [] }

/-- A message is sent, or sent again (R311): reduce packets are ordered, and keep the VER under which they went first (R293,
R295). -/
def sendMessage (c : Conn) (m : Message) (s : State) : State :=
  if m.get then inject (getRequest c m s) s
  else (messagePackets c m s).foldl
    (fun s q => if m.op.isSome && m.ver = s.pkg.fab.ver then sendLater q s else routePacket q s) s

/-- The messages of a connection that are outstanding. -/
def outstanding (c : Conn) : List Message := c.out.filter (fun m => m.sent.isSome)

/-- The first message may be sent: the window and the count have room for it (R309). -/
def windowRoom (c : Conn) (m : Message) : Bool :=
  ((outstanding c).map (·.len)).sum + m.len ≤ c.window && (outstanding c).length < 64

/-- The messages of a connection with one replaced, by SEQ. -/
def setMessage (c : Conn) (m : Message) : Conn := { c with out := c.out.map (fun x => if x.seq = m.seq then m else x) }

/-- The waiting messages of an open connection are sent in order while there is room; the first argument counts them. -/
def pumpConn : Nat → Conn → State → State
  | 0, c, s => setConn c s
  | n + 1, c, s =>
    match c.out.find? (fun m => m.sent.isNone) with
    | none => setConn c s
    | some m =>
      if (c.state = .opened || c.state = .closing) && windowRoom c m then
        let m := { m with sent := some s.pkg.devtime, ver := s.pkg.fab.ver }
        pumpConn n (setMessage c m) (sendMessage c m s)
      else setConn c s

/-- A connection goes on sending. -/
def pump (c : Conn) (s : State) : State := pumpConn c.out.length c s

/-- An OPEN for a connection under an epoch (R308): ADDR is the notify offset. With AUX 1 it tells the target that the
connection is closed, whose record it frees (log 97). -/
def openPacket (c : Conn) (epoch : BitVec 4) (s : State) : Packet :=
  { kind := 10, cls := 2, ver := s.pkg.fab.ver, vc := false, dst := c.node, src := s.pkg.nodeid, scid := Config.coreId, dcid := 0
    cn := c.cn, epoch := epoch, seq := 0, poff := 0, hops := 0, addr := c.notify, ctxid := c.ctxid, aux := 0, mark := false
    data := [] }

/-- A connection has no message left and is closing: it is closed, and the target's record is freed (R308). -/
def settleConn (c : Conn) (s : State) : State :=
  if c.state = .closing && c.out.isEmpty then
    sendLater { openPacket c c.epoch s with aux := 1 } (setConn { c with state := .closed, since := s.pkg.devtime } s)
  else setConn c s

/-- Every open connection goes on sending, and a closing one that has nothing left is closed. -/
def pumpAll (s : State) : State :=
  let s := s.pkg.fab.conns.foldl (fun s c => pump c s) s
  s.pkg.fab.conns.foldl (fun s c => settleConn c s) s

/-- The request of a get is still on the ordered path, which sends it again itself (R303). -/
def requestOut (s : State) (c : Conn) (m : Message) : Bool :=
  let p := pathTo s.pkg.fab c.node
  let mine (q : Packet) : Bool := q.kind = 5 && q.ctxid = c.ctxid && q.aux = (getRequest c m s).aux
  p.unacked.any (fun x => mine x.1) || p.wait.any mine

/-- RTO_EXPIRY (R303, R311): every unacknowledged packet of the path is sent again in order, and every packet of the
messages to the node that have been unacknowledged as long; of a get whose data has not all come, the request. -/
def resendAll (node : BitVec 12) (s : State) : State :=
  let p := pathTo s.pkg.fab node
  let rto := rtoNs s.pkg.fab
  let s := if age s p.since < rto then s else p.unacked.foldl (fun s x => routePacket x.1 s) s
  let old (c : Conn) : List Message :=
    if c.node = node && (c.state = .opened || c.state = .closing) then
      c.out.filter (fun m => !(m.get && requestOut s c m) && (match m.sent with | some t => decide (rto ≤ age s t) | none => false))
    else []
  s.pkg.fab.conns.foldl (fun s c => (old c).foldl (fun s m => sendMessage c m s) s) s

def execRtoExpiry (node : BitVec 12) (s : State) : Host.Outcome State Fault Refusal := event (resendAll node s)

/-! ## Timeouts -/

/-- A context's remote load of a node is abandoned: it traps NODE_UNREACHABLE at its next group (R307). -/
def abandonLoads (node : BitVec 12) (s : State) : State :=
  let hit (o : MemOp) : Bool := match o.kind with | .remoteLoad n _ _ => n = node | _ => false
  let addr (o : MemOp) : W64 := match o.kind with
    | .remoteLoad n off _ => BitVec.ofNat 64 (2 ^ 60 + n.toNat * 2 ^ 48 + off)
    | _ => 0
  let lost := s.c.ops.filter hit
  s.withC { s.c with
    ops := s.c.ops.filter (fun o => !hit o)
    late := s.c.late ++ lost.map (fun o => ⟨.nodeUnreachable, addr o, false⟩) }

/-- A get is stopped by a NAK or by poison (R221, R316): its message and the later commands of its context, engine and class are
cancelled, ERR records the cause, and the context traps; in the phase that issued it, poison is consumed. -/
def stopGet (g : Get) (why : Cause) (va : W64) (s : State) : State :=
  let s := dropGets (fun x => x.own.ctxid = g.own.ctxid && x.cn = g.cn && x.seq = g.seq) s
  let s := cancelClass g.own g.e g.pri g.no false why s
  let open_ : Bool := (ownedBy g.own s.c && openPhase g.own s) || (ownedBy g.own s.c2 && s.c2.phseq = g.own.phseq)
  if why = .copyPoison && open_ then onOwner g.own (consumeLate va) s
  else lateTrap g.own ⟨why, va, open_⟩ s

/-- The gets of a connection that are outstanding are abandoned (R307, R308). -/
def abandonGets (p : Get → Bool) (s : State) : State :=
  let l := s.pkg.fab.gets.filter p
  l.foldl (fun s g => lateTo g.own.ctxid .nodeUnreachable (BitVec.ofNat 64 g.off) s) (dropGets p s)

/-- The contexts with a store, an atomic or a reduce-stored run outstanding toward a node (R307). -/
def storersTo (node : BitVec 12) (s : State) : List W32 :=
  let p := pathTo s.pkg.fab node
  let stores := (p.unacked.map Prod.fst ++ p.wait).filter (fun q => q.kind = 1 || q.kind = 2)
  let atoms (c : Ctx) : List W32 :=
    (c.ops.filter (fun o => match o.kind with | .remoteAtom n _ _ _ _ => n = node | _ => false)).map (fun _ => c.id.ctxid)
  let reds := s.pkg.fab.conns.filter (fun c => c.node = node && (outstanding c).any (fun m => m.op.isSome))
  (stores.map (·.ctxid) ++ atoms s.c ++ atoms s.c2 ++ reds.map (·.ctxid)).eraseDups

/-- A get is of a connection to a node. -/
def getFrom (node : BitVec 12) (s : State) (g : Get) : Bool :=
  ((findConn s g.own.ctxid g.cn).map (fun c => decide (c.node = node))).getD false

/-- FABTMO_EXPIRY (R307): once a packet of the path has been unacknowledged so long, the path keeps retrying; the
outstanding loads and gets on it are abandoned, and the contexts with an outstanding store, reduce-stored run or atomic on
it are aborted. -/
def pathTimesOut (node : BitVec 12) (s : State) : State :=
  let p := pathTo s.pkg.fab node
  let late := p.unacked.filter (fun x => decide (tmoNs s.pkg.fab ≤ age s x.2))
  if late.isEmpty then s
  else
    let dead := storersTo node s
    let s := inOther (abandonLoads node) (abandonLoads node s)
    let s := faultNode node (abandonGets (getFrom node s) s)
    dead.foldl (fun s ctx => abortCtx ctx .uncontained (freeAddr s) s) s

def execFabtmoExpiry (node : BitVec 12) (s : State) : Host.Outcome State Fault Refusal := event (pathTimesOut node s)

/-! ## Replies -/

/-- The data of a reply, which begins with the first byte that its operation fetches, at the operation's positions; bytes
forwarded stand (R304). -/
def replyBytes (l : List (Nat × LByte)) (d : List Byte) : List (Nat × Byte) :=
  l.map (fun b => (b.1, match b.2 with
    | .fwd x => x
    | .mem x => d.getD (x - (fetchSpan l).1) 0))

/-- The space-1 address of an offset at a node (R144). -/
def remoteVa (node : BitVec 12) (off : Nat) : W64 := BitVec.ofNat 64 (2 ^ 60 + node.toNat * 2 ^ 48 + off)

/-- A remote operation's reply arrives: operation k of the running context (R304); poisoned data is consumed (R184). -/
def remoteReply (k : Nat) (data : List Byte) (poison : Bool) (s : State) : State :=
  let arrives (o : MemOp) (node : BitVec 12) (off : Nat) (l : List (Nat × Byte)) : State :=
    if poison then consumeLate (remoteVa node off) s
    else landResult o l (dropOp k s)
  match s.c.ops[k]? with
  | none => s
  | some o => match o.kind with
    | .remoteLoad node off l => arrives o node off (replyBytes l data)
    | .remoteAtom node off _ _ _ => arrives o node off (cellsAt 0 (data.take 8))
    | .load _ | .loadRo _ _ _ | .atom _ _ _ _ | .stat _ _ _ => s

/-- REMOTE_REPLY_DATA: the k-th operation outstanding on the core, those of the running context first (R304). -/
def execRemoteReplyData (k : Nat) (d : ReplyData) (s : State) : Host.Outcome State Fault Refusal :=
  event (if k < s.c.ops.length then remoteReply k d.bytes d.poison s
    else inOther (remoteReply (k - s.c.ops.length) d.bytes d.poison) s)

/-- The cause of a NAK. -/
def nakCause (access : Bool) : Cause := if access then .access else .unmapped

/-- Operation k of the running context meets a NAK: the trap is delivered late and nothing is written (R304). -/
def nakOp (k : Nat) (access : Bool) (s : State) : State :=
  let late (node : BitVec 12) (off : Nat) : State :=
    let s := dropOp k s
    s.withC { s.c with late := s.c.late ++ [⟨nakCause access, remoteVa node off, true⟩] }
  match s.c.ops[k]? with
  | none => s
  | some o => match o.kind with
    | .remoteLoad node off _ => late node off
    | .remoteAtom node off _ _ _ => late node off
    | .load _ | .loadRo _ _ _ | .atom _ _ _ _ | .stat _ _ _ => s

/-- The address of a get's first byte that its home does not give: the first of its range, or of the range's second page,
which the NAK does not tell apart. -/
def failedByte (c : Conn) (m : Message) (s : State) : W64 :=
  let page := alignDown m.off (2 ^ 16) + 2 ^ 16
  remoteVa c.node (if page < m.off + m.len && (freeAddr s).getLsbD 0 then page else m.off)

/-- A message meets a NAK: a put or reduce-store completes without notify, and the context traps with the offset (R315,
R317); a get stops (R316). -/
def nakMessage (access : Bool) (c : Conn) (m : Message) (s : State) : State :=
  let s := match s.pkg.fab.gets.find? (fun g => g.own.ctxid = c.ctxid && g.cn = c.cn && g.seq = m.seq) with
    | some g => stopGet g (nakCause access) (failedByte c m s) s
    | none => lateTo c.ctxid (nakCause access) (BitVec.ofNat 64 m.off) s
  settleConn { c with out := c.out.filter (fun x => x.seq ≠ m.seq) } s

/-- NAK_RECEIPT: k counts the operations of the running context, those of the other, the stores on the ordered paths, and
the messages of the connections, in this order. -/
def receiveNak (k : Nat) (access : Bool) (s : State) : State :=
  let a := s.c.ops.length
  let b := s.c2.ops.length
  let stores := (s.pkg.fab.paths.flatMap (fun p => p.2.unacked.map Prod.fst)).filter (fun q => q.kind = 1)
  let msgs := s.pkg.fab.conns.flatMap (fun c => (outstanding c).map (fun m => (c, m)))
  if k < a then nakOp k access s
  else if k < a + b then inOther (nakOp (k - a) access) s
  else match stores[k - a - b]?, msgs[k - a - b - stores.length]? with
    | some q, _ => lateTo q.ctxid (nakCause access) (remoteVa q.dst q.addr) s
    | none, some (c, m) => nakMessage access c m s
    | none, none => s

def execNakReceipt (k : Nat) (access : Bool) (s : State) : Host.Outcome State Fault Refusal := event (receiveNak k access s)

/-! ## Connections: the source side (R308, R309, R314) -/

/-- The state of a connection of the running context; one never bound is CLOSED (R308). -/
def connOf (s : State) (cn : Fin 16) : Conn :=
  (findConn s s.c.id.ctxid cn).getD
    { ctxid := s.c.id.ctxid, cn := cn, state := .closed, epoch := 0, node := 0, gcw := 0, ge := false, notify := 0, gets := 0
      window := 0, next := 0, out := [], cause := 0, acked := 0, since := 0 }

/-- A connection joins the table, or replaces its entry. -/
def bindConn (c : Conn) (s : State) : State :=
  let rest := s.pkg.fab.conns.filter (fun d => !(d.ctxid = c.ctxid && d.cn = c.cn))
  s.withPkg { s.pkg with fab := { s.pkg.fab with conns := rest ++ [c] } }

/-- An OPEN is injected, under the present VER (R295). -/
def sendOpen (c : Conn) (epoch : BitVec 4) (s : State) : State :=
  let s := setConn c (sendLater (openPacket c epoch s) s)
  s.withPkg { s.pkg with fab := { s.pkg.fab with opens := s.pkg.fab.opens ++ [⟨c.node, c.ctxid, c.cn, s.pkg.fab.ver, s.pkg.devtime⟩] } }

/-- The oldest OPEN of a connection has been answered. -/
def openAnswered (ctx : W32) (cn : Fin 16) (s : State) : State :=
  s.withPkg { s.pkg with fab := { s.pkg.fab with opens := s.pkg.fab.opens.eraseP (fun o => o.ctxid = ctx && o.cn = cn) } }

/-- `rma.conn` (R314). -/
def execRmaConn (g : Fin 16) (a b : Src) (s : State) : Host.Outcome State Fault Refusal :=
  guarded g s (fun s => do
    let (x, y, _, s) ← srcSS a b s
    let node := x.extractLsb' 4 12
    let gcw := fieldOf x 37 16
    let ge := x.getLsbD 38
    need (nodeInExt s.pkg.fab.ext node) .address
    need (!ge || gcw % 4 = 0) .misalign
    need (!ge || (regionAt s.c.regions false gcw 4).isSome) .bounds
    need (fieldOf y 47 0 % 8 = 0) .misalign
    let c := connOf s (x.extractLsb' 0 4).toFin
    need (c.state = .closed) .connState
    let c := { c with
      state := .opening, epoch := c.epoch + 1, node := node, gcw := gcw, ge := ge, notify := fieldOf y 47 0, gets := 0
      window := 65536, next := 0, out := [], acked := 0, since := s.pkg.devtime }
    .ok (emit (sendOpen c c.epoch (bindConn c s))))

/-- The CLOSING transition (R308). -/
def closeConn (c : Conn) (s : State) : State :=
  if c.state = .opened || c.state = .opening then settleConn { c with state := .closing, since := s.pkg.devtime } s else s

/-- `rma.conn.close` (R314). -/
def execRmaConnClose (g : Fin 16) (a : Src) (s : State) : Host.Outcome State Fault Refusal :=
  guarded g s (fun s => do
    let (x, _, s) ← srcS a s
    let node := x.extractLsb' 4 12
    let gcw := fieldOf x 37 16
    let ge := x.getLsbD 38
    need (nodeInExt s.pkg.fab.ext node) .address
    need (!ge || gcw % 4 = 0) .misalign
    need (!ge || (regionAt s.c.regions false gcw 4).isSome) .bounds
    .ok (emit (closeConn (connOf s (x.extractLsb' 0 4).toFin) s)))

/-- A connection by its key. -/
def onConn (ctx : W32) (cn : Fin 16) (f : Conn → State → State) (s : State) : State :=
  match findConn s ctx cn with
  | some c => f c s
  | none => s

/-- ANSWER_RECEIPT (R308). -/
def receiveAnswer (accepted : Bool) (c : Conn) (s : State) : State :=
  match c.state, accepted with
  | .opening, true => pump { c with state := .opened, window := 65536, acked := 0, since := s.pkg.devtime } s
  | .opening, false => setConn { c with state := .closed, cause := 1, since := s.pkg.devtime } s
  | .broken, true =>
    let c := { c with state := .opened, epoch := c.epoch + 1, window := 65536, acked := 0, since := s.pkg.devtime }
    let again := outstanding c
    let now (m : Message) : Message := { m with sent := some s.pkg.devtime, ver := s.pkg.fab.ver }
    let c := { c with out := c.out.map (fun m => if m.sent.isSome then now m else m) }
    pump c (again.foldl (fun s m => sendMessage c (now m) s) s)
  | _, _ => s

def execAnswerReceipt (ctx : W32) (cn : Fin 16) (accepted : Bool) (s : State) : Host.Outcome State Fault Refusal :=
  event (onConn ctx cn (receiveAnswer accepted) (openAnswered ctx cn s))

/-- CONNECTION_TIMEOUT: FABTMO has elapsed (R308). -/
def connTimesOut (c : Conn) (s : State) : State :=
  let tmo := tmoNs s.pkg.fab
  let stuck := (outstanding c).any (fun m => match m.sent with | some t => decide (tmo ≤ age s t) | none => false)
  match c.state with
  | .opening =>
    if tmo ≤ age s c.since then setConn { c with state := .closed, cause := 2, since := s.pkg.devtime } s else s
  | .opened | .closing => if stuck then setConn { c with state := .broken, since := s.pkg.devtime } s else s
  | .closed | .broken => s

def execConnectionTimeout (ctx : W32) (cn : Fin 16) (s : State) : Host.Outcome State Fault Refusal :=
  event (onConn ctx cn connTimesOut s)

/-- AUTO_OPEN: a broken connection asks again (R308). -/
def execAutoOpen (ctx : W32) (cn : Fin 16) (s : State) : Host.Outcome State Fault Refusal :=
  event (onConn ctx cn (fun c s => if c.state = .broken then sendOpen c (c.epoch + 1) s else s) s)

/-- BROKEN_CLOSE: 8 × FABTMO in BROKEN (R308). -/
def brokenCloses (c : Conn) (s : State) : State :=
  if c.state ≠ .broken || age s c.since < 8 * tmoNs s.pkg.fab then s
  else
    let items := c.out.any (fun m => !m.get)
    let s := setConn { c with state := .closed, cause := 3, out := [], since := s.pkg.devtime } s
    let s := abandonGets (fun g => g.own.ctxid = c.ctxid && g.cn = c.cn) s
    if items then abortCtx c.ctxid .uncontained (freeAddr s) s else s

def execBrokenClose (ctx : W32) (cn : Fin 16) (s : State) : Host.Outcome State Fault Refusal :=
  event (onConn ctx cn brokenCloses s)

/-- The window after an acknowledgement (R309): at most one halving for each W bytes acknowledged. -/
def nextWindow (c : Conn) (len : Nat) (mark : Bool) : Conn :=
  let n := c.acked + len
  if !mark then { c with window := min (c.window + 4096) (4 * 2 ^ 20), acked := n }
  else if n < c.window then { c with acked := n }
  else { c with window := max (c.window / 512 * 256) 8192, acked := 0 }

/-- MESSAGE_ACK_RECEIPT (R308, R309). -/
def receiveMessageAck (seq : W32) (mark : Bool) (c : Conn) (s : State) : State :=
  match (outstanding c).find? (fun m => m.seq = seq && !m.get) with
  | none => s
  | some m =>
    let c := nextWindow { c with out := c.out.filter (fun x => x.seq ≠ seq) } m.len mark
    let s := pump c s
    onConn c.ctxid c.cn settleConn s

def execMessageAckReceipt (ctx : W32) (cn : Fin 16) (seq : W32) (mark : Bool) (s : State) : Host.Outcome State Fault Refusal :=
  event (onConn ctx cn (receiveMessageAck seq mark) s)

/-! ## Connections: the target side (R308, R310 to R312) -/

/-- The inbound record of a packet. -/
def findInbound (s : State) (q : Packet) : Option Inbound :=
  s.pkg.fab.inbound.find? (fun r => r.src = q.src && r.ctxid = q.ctxid && r.cn = q.cn)

/-- A record joins the table, or replaces its entry. -/
def setInbound (r : Inbound) (s : State) : State :=
  let rest := s.pkg.fab.inbound.filter (fun x => !(x.src = r.src && x.ctxid = r.ctxid && x.cn = r.cn))
  s.withPkg { s.pkg with fab := { s.pkg.fab with inbound := rest ++ [r] } }

/-- An ANSWER: AUX is 1 where the OPEN is accepted (log 17). -/
def answerPacket (q : Packet) (ok : Bool) (s : State) : Packet := answerTo q 11 2 (if ok then 1 else 0) [] s

/-- OPEN_RECEIPT (R308): the record takes the epoch, the notify offset and an empty window; without a free record the answer
refuses. The close of a connection frees the record of its epoch (log 97). -/
def receiveOpen (q : Packet) (s : State) : State :=
  if q.dst ≠ s.pkg.nodeid then s
  else if q.aux = 1 then
    s.withPkg { s.pkg with fab := { s.pkg.fab with
      inbound := s.pkg.fab.inbound.filter (fun r => !(r.src = q.src && r.ctxid = q.ctxid && r.cn = q.cn && r.epoch = q.epoch)) } }
  else if (findInbound s q).isNone && 4096 ≤ s.pkg.fab.inbound.length then routePacket (answerPacket q false s) s
  else routePacket (answerPacket q true s) (setInbound ⟨q.src, q.ctxid, q.cn, q.epoch, q.addr, [], []⟩ s)

def execOpenReceipt (q : Packet) (s : State) : Host.Outcome State Fault Refusal := event (receiveOpen q s)

/-- A message's acknowledgement (R310). -/
def messageAck (q : Packet) (s : State) : State := routePacket (answerTo q 7 1 messageFlag [] s) s

/-- A SEQ is in the completed window or precedes it (R311). -/
def completed (r : Inbound) (seq : W32) : Bool :=
  r.done.contains seq || (64 ≤ r.done.length && r.done.all (fun d => serialLe seq d))

/-- The landing record of a message. -/
def landingOf (r : Inbound) (seq : W32) (len : Nat) : Landing := (r.landing.find? (fun l => l.seq = seq)).getD ⟨seq, len, 0, 0, false⟩

/-- An atomic add of 1 to a notify word at its home slice (R315). -/
def addNotify (off : Nat) (s : State) : State :=
  match homeBytes .both off 8 s with
  | .ok pas => writeMem (pas.zip (bytesOf 8 (ofBytes (pas.map (getByte s.pkg.mem)) + 1))) s
  | .error _ => s

/-- A message is complete: its notify, its SEQ in the window, its acknowledgement (R310, R311, R315). -/
def completeMessage (r : Inbound) (q : Packet) (nt : Bool) (s : State) : State :=
  let s := if nt then addNotify r.notify s else s
  messageAck q (setInbound { r with
    landing := r.landing.filter (fun l => l.seq ≠ q.seq)
    done := (q.seq :: r.done).take 64 } s)

/-! ## Reduce packets (R312, R317) -/

/-- An element of a reduce operation: its width in bytes and its new value (R317). -/
def redElem (op : Nat) (t x : Nat) : Nat :=
  let fmt : W64 := 0
  match op with
  | 0 => (fpOp2 fmt fpFP32 fadd t x 0).1
  | 1 => (minMax fpFP32 false true t x).1
  | 2 => (minMax fpFP32 false false t x).1
  | 3 => (t + x) % 2 ^ 32
  | 4 => if sextN 32 t < sextN 32 x then x else t
  | _ => (t + x) % 2 ^ 64

/-- The width of a reduce operation's elements in bytes. -/
def redWidth (op : Nat) : Nat := if op = 5 then 8 else 4

/-- The bytes of a range after a reduce operation. -/
def redBytes (op : Nat) (t x : List Byte) : List Byte :=
  let w := redWidth op
  (List.range (x.length / w)).flatMap (fun i =>
    bytesOf w (redElem op (ofBytes ((t.drop (w * i)).take w)) (ofBytes ((x.drop (w * i)).take w))))

/-- The exclusive or of n fields of w bits of a number, each from the place where the one before ends. -/
def xorFields (x w from_ n : Nat) : Nat := (List.range n).foldl (fun y i => y ^^^ bitsOf x (from_ + w * i + w - 1) (from_ + w * i)) 0

/-- The home slice of a physical address (R152). -/
def homeSlice (pa : Nat) : Nat :=
  if pa < 2 ^ 48 then 16 * bitsOf pa 38 36 + xorFields pa 4 8 7 else xorFields pa 7 8 4

/-- A reduce tag comes after another in lexicographic order (R312). -/
def tagAfter (x y : Nat × Nat × Nat) : Bool :=
  y.1 < x.1 || (x.1 = y.1 && (y.2.1 < x.2.1 || (x.2.1 = y.2.1 && y.2.2 < x.2.2)))

/-- The tag of a reduce packet: PHSEQ, index, POFF. -/
def redTag (q : Packet) : Nat × Nat × Nat := (q.aux.toNat % 2 ^ 48, q.aux.toNat / 2 ^ 48, q.poff)

/-- A reduce packet is performed at one home slice, on the bytes that lie there: it is dropped where its tag is not greater
than the slice's record of its source (R312, R317). -/
def redAtSlice (q : Packet) (op : Nat) (cells : Cells) (s : State) (slice : Nat) : State :=
  let l := (look s.pkg.fab.tags slice).getD []
  let fresh : Bool := match l.find? (fun t => t.1 = q.ctxid) with | some t => tagAfter (redTag q) t.2 | none => true
  if !fresh then s
  else
    let mine := cells.filter (fun c => homeSlice c.1 = slice)
    let s := writeMem ((mine.map Prod.fst).zip (redBytes op (mine.map (fun c => getByte s.pkg.mem c.1)) (mine.map Prod.snd))) s
    s.withPkg { s.pkg with fab := { s.pkg.fab with
      tags := put s.pkg.fab.tags slice (((q.ctxid, redTag q) :: l.filter (fun t => t.1 ≠ q.ctxid)).take 256) } }

/-- What a packet of a message does at its home places: a put writes, a reduce packet reduces at each of its slices. -/
def performPacket (q : Packet) (op : Option Nat) (pas : List Nat) (s : State) : State :=
  match op with
  | none => writeMem (pas.zip q.data) s
  | some o => ((pas.map homeSlice).eraseDups).foldl (redAtSlice q o (pas.zip q.data)) s

/-- A packet of a put or of a reduce-store lands (R308 to R312, R315, R317): one of another epoch is discarded, one of a
completed message is acknowledged again, one that has landed is discarded; otherwise it is performed at its home and counted,
and with the last the message completes. -/
def landMessage (q : Packet) (op : Option Nat) (len : Nat) (nt : Bool) (s : State) : State :=
  match findInbound s q with
  | none => s
  | some r =>
    if r.epoch ≠ q.epoch then s
    else if completed r q.seq then messageAck q s
    else
      let l := landingOf r q.seq len
      if l.bitmap.getLsbD q.poff then s
      else match homeBytes .write q.addr q.data.length s with
        | .error (.nak c) => sendNak (messageNak q c s) s
        | .error h => homeWaits h s
        | .ok pas =>
          let s := performPacket q op pas s
          let l := { l with bitmap := setBit l.bitmap q.poff true, count := l.count + 256, mark := l.mark || q.mark }
          let r := { r with landing := l :: r.landing.filter (fun x => x.seq ≠ q.seq) }
          if l.len ≤ l.count then completeMessage r { q with mark := l.mark } nt s else setInbound r s

/-- PUT_PACKET_LANDING (R310). -/
def execPutPacketLanding (q : Packet) (len : Nat) (nt : Bool) (s : State) : Host.Outcome State Fault Refusal :=
  event (landMessage q none len nt s)

/-- RED_PACKET_APPLY (R312, R317). -/
def execRedPacketApply (q : Packet) (m : RedMessage) (s : State) : Host.Outcome State Fault Refusal :=
  event (if 5 < m.op.val then s else landMessage q (some m.op.val) m.len m.nt s)

/-! ## Gets (R316) -/

/-- GETREQ_RECEIPT: the target reads the bytes as committed data and sends them, each request once and in the order of its
path (R303). -/
def execGetreqReceipt (q : Packet) (s : State) : Host.Outcome State Fault Refusal :=
  event (if q.kind = 5 then receiveOrdered q s else s)

/-- A get is complete: its message is answered, DONE counts, and with CW the connection's get counter goes to GCW. -/
def finishGet (g : Get) (s : State) : State :=
  let s := dropGets (fun x => x.own.ctxid = g.own.ctxid && x.cn = g.cn && x.seq = g.seq) s
  let s := countDone g.own g.e s
  onConn g.own.ctxid g.cn (fun c s =>
    let c := { c with out := c.out.filter (fun m => m.seq ≠ g.seq), gets := if g.cw then c.gets + 1 else c.gets }
    let s := if g.cw then landWord g.own (some (false, c.gcw, c.gets)) s else s
    let s := pump c s
    onConn c.ctxid c.cn settleConn s) s

/-- The get counter of a get would be written into a source slot that a collective operation has still to read (R329). -/
def gcwHeld (g : Get) (s : State) : Bool :=
  g.cw && (findConn s g.own.ctxid g.cn).any (fun c => wordHeld g.own c.gcw s)

/-- Poisoned data has come for a get, which stops; its message is over (R221). -/
def poisonGet (g : Get) (poff : Nat) (s : State) : State :=
  onConn g.own.ctxid g.cn (fun c s =>
    let off := ((c.out.find? (fun m => m.seq = g.seq)).map (·.off)).getD 0
    let s := stopGet g .copyPoison (remoteVa c.node (off + 256 * poff)) s
    onConn c.ctxid c.cn (fun c s => settleConn { c with out := c.out.filter (fun m => m.seq ≠ g.seq) } s) s) s

/-- GET_DATA_LANDING: a packet is written into the back half or the single copy, once (R310, R316); one onto a source slot
that a collective operation has still to read is held (R329); poison is not written (R221). -/
def landGet (ctx : W32) (cn : Fin 16) (seq : W32) (poff : Nat) (data : List Byte) (poison : Bool) (s : State) : State :=
  match s.pkg.fab.gets.find? (fun g => g.own.ctxid = ctx && g.cn = cn && g.seq = seq) with
  | none => s
  | some g =>
    let off := g.off + 256 * poff
    let last : Bool := popN 256 (setBit g.got poff true).toNat = g.n
    if g.n ≤ poff || g.got.getLsbD poff || sourceHeld s ctx (2 ^ 64) off 256 || (last && gcwHeld g s) then s
    else if poison then poisonGet g poff s
    else
      let s := onOwner g.own (fun s => match regionAt s.c.regions false off 256 with
        | some r => landBuf g.own false (cellsAt (r.phys true off) (data.take 256)) s
        | none => s) s
      let h := { g with got := setBit g.got poff true }
      if popN 256 h.got.toNat = g.n then finishGet h s
      else s.withPkg { s.pkg with fab := { s.pkg.fab with gets := s.pkg.fab.gets.map (fun x => if x = g then h else x) } }

def execGetDataLanding (ctx : W32) (cn : Fin 16) (seq : W32) (poff : Nat) (data : ReplyData) (s : State) :
    Host.Outcome State Fault Refusal := event (landGet ctx cn seq poff data.bytes data.poison s)

/-! ## rma.put, rma.get, rma.red, rma.stat -/

/-- The number of packets that a source or landing word gives; 0 means 256 (R313). -/
def packetsOf (n : Nat) : Nat := if n = 0 then 256 else n

/-- A destination or remote source word (R313): the connection and the offset. -/
def connWord (x : W64) : Res (Fin 16 × Nat) := do
  need (fieldOf x 59 48 = 0) .address
  .ok ((x.extractLsb' 60 4).toFin, fieldOf x 47 0)

/-- The connection is OPEN or OPENING (R315). -/
def needConn (cn : Fin 16) (s : State) : Res Conn := do
  let c := connOf s cn
  need (c.state = .opened || c.state = .opening) .connState
  .ok c

/-- The physical addresses of the 256-byte parts of a local source range, checked as a load of its bytes (R160, R315). -/
def sourceRange (off n : Nat) (s : State) : Res (List Nat × State) :=
  inParts (fun i s => paOf 0 .read (BitVec.ofNat 64 (off + 256 * i)) s) (List.range n) s

/-- What `rma.put` and `rma.red` buffer (R315, R317). -/
def bufferMessage (nt : Bool) (op : Option (Fin 16)) (x y : W64) (s : State) : Res State := do
  let (cn, off) ← connWord x
  let _ ← needConn cn s
  let src := fieldOf y 47 0
  let n := packetsOf (fieldOf y 55 48)
  need (off % 256 = 0 && src % 256 = 0) .misalign
  need (src + 256 * n ≤ 2 ^ 48) .address
  let (pas, s) ← sourceRange src n s
  bufferRemote (.message cn nt op off pas (256 * n)) s

/-- `rma.put` (R315). -/
def execRmaPut (g : Fin 16) (nt : Bool) (a b : Src) (s : State) : Host.Outcome State Fault Refusal :=
  guarded g s (fun s => do
    let (x, y, _, s) ← srcSS a b s
    bufferMessage nt none x y s)

/-- `rma.red` (R317): FORMAT for an operation code above 5. -/
def execRmaRed (g : Fin 16) (nt : Bool) (op : Fin 16) (a b : Src) (s : State) : Host.Outcome State Fault Refusal :=
  guarded g s (fun s => do
    let (x, y, _, s) ← srcSS a b s
    need (op.val ≤ 5) .format
    bufferMessage nt (some op) x y s)

/-- A command of the same context, engine and class is at work (R216). -/
def classBusy (e : Fin 2) (pri : Nat) (s : State) : Bool :=
  s.core.xq.any (fun x => ownCopy s x && x.e = e && ctlPri x.sh = pri)
    || s.pkg.fab.gets.any (fun g => g.own.ctxid = s.c.id.ctxid && g.e = e && g.pri = pri)
    || s.pkg.attn.tiers.any (fun t => t.own.ctxid = s.c.id.ctxid && t.e = e && t.pri = pri)

/-- `rma.get` (R316): its group waits while the engine holds 16 commands of the context or an earlier one of the class is at work, and until the
connection's window and path take it (R290, R309). -/
def execRmaGet (g : Fin 16) (e : Fin 2) (cw : Bool) (a b : Src) (s : State) : Host.Outcome State Fault Refusal :=
  guarded g s (fun s => do
    let (x, y, t, s) ← srcSS a b s
    let (cn, off) ← connWord x
    let c ← needConn cn s
    need (!cw || c.ge) .connState
    let dst := fieldOf y 21 0
    let n := packetsOf (fieldOf y 55 48)
    need (off % 256 = 0 && dst % 256 = 0) .misalign
    need (regionAt s.c.regions false dst (256 * n)).isSome .bounds
    engineReady (t || predTaint s.c (guardReg g)) s
    let pri := ctlPri s.c.a.shadow[e]
    let m : Message := { seq := c.next, len := 256 * n, op := none, get := true, nt := false, off := off, data := [], index := 0
                         phseq := s.c.phseq, sent := none, ver := s.pkg.fab.ver }
    let full : Bool := 16 ≤ engineLoad s e
    if full || classBusy e pri s || !(c.state = .opened && windowRoom c m && pathRoom s.pkg.fab c.node 1) then waitRoom
    else
      let (no, s) := nextEngine s
      let get : Get := { own := ownerOf s, cn := cn, seq := c.next, no := no, e := e, pri := pri, off := dst, n := n, cw := cw, got := 0 }
      let s := s.withPkg { s.pkg with fab := { s.pkg.fab with gets := s.pkg.fab.gets ++ [get] } }
      .ok (pump { c with out := c.out ++ [m], next := c.next + 1 } s))

/-- The code of a connection's state (R318). -/
def connCode : ConnState → Nat
  | .closed => 0 | .opening => 1 | .opened => 2 | .broken => 3 | .closing => 4

/-- What `rma.stat` reads (R318). -/
def connStatus (c : Conn) : W64 :=
  BitVec.ofNat 64 (c.window / 1024 * 2 ^ 48 + (outstanding c).length * 2 ^ 40 + c.epoch.toNat * 2 ^ 36
    + connCode c.state * 2 ^ 32 + c.cause * 2 ^ 28 + c.node.toNat)

/-- `rma.stat` (R318). -/
def execRmaStat (g : Fin 16) (d : Reg) (b : Src) (s : State) : Host.Outcome State Fault Refusal :=
  guarded g s (fun s => do
    let (y, t, s) ← srcS b s
    writeReg d (connStatus (connOf (atStart s) (y.extractLsb' 0 4).toFin)) (t || predTaint s.c (guardReg g)) 2 s)

/-! ## The loopback (R301) -/

/-- The operation outstanding in the running context under a sequence number of the path to its own node. -/
def loopOp (seq : W32) (s : State) : Option Nat :=
  findIdx (fun o => o.seq = seq && (match o.kind with
    | .remoteLoad n _ _ => n = s.pkg.nodeid
    | .remoteAtom n _ _ _ _ => n = s.pkg.nodeid
    | _ => false)) s.c.ops

/-- What an answer to operation k of the context of an identity does. -/
def onLoopOp (q : Packet) (f : Nat → State → State) (s : State) : State :=
  onOwner { Owner.none with ctxid := q.ctxid } (fun s => match loopOp q.seq s with
    | some k => f k s
    | none => s) s

/-- A reply or acknowledgement to this package's own request or message. -/
def loopAnswer (q : Packet) (s : State) : State :=
  let msg : Bool := q.aux.getLsbD 63
  let access : Bool := q.aux.toNat % 2 ^ 63 = causeCode .access
  match q.kind with
  | 6 =>
    let bad := q.aux.getLsbD 62
    if msg then landGet q.ctxid q.cn q.seq q.poff q.data bad s else onLoopOp q (fun k s => remoteReply k q.data bad s) s
  | 7 =>
    if msg then onConn q.ctxid q.cn (receiveMessageAck q.seq q.mark) s
    else
      let p := pathTo s.pkg.fab q.src
      if p.unacked.any (fun x => x.1.seq = q.seq) then
        setPath q.src { p with unacked := p.unacked.filter (fun x => !serialLe x.1.seq q.seq), since := s.pkg.devtime } s
      else s
  | 8 =>
    if msg then onConn q.ctxid q.cn (fun c s => match c.out.find? (fun m => m.seq = q.seq) with
      | some m => nakMessage access c m s
      | none => s) s
    else match (pathTo s.pkg.fab q.src).unacked.find? (fun x => x.1.seq = q.seq) with
      | some x => if x.1.kind = 1 then lateTo q.ctxid (nakCause access) (remoteVa q.src x.1.addr) s
          else onLoopOp q (fun k s => nakOp k access s) s
      | none => s
  | 11 => onConn q.ctxid q.cn (receiveAnswer (q.aux = 1)) (openAnswered q.ctxid q.cn s)
  | _ => s

/-- A packet that the loopback has brought is performed; one that waits for a page stays, and those of the ordered path
behind it. -/
def loopPacket (s : State) (q : Packet) : State :=
  let f := s.pkg.fab
  let back (s : State) : State := s.withPkg { s.pkg with fab := { s.pkg.fab with loop := s.pkg.fab.loop ++ [q] } }
  match q.kind with
  | 0 | 1 | 2 | 5 =>
    let want := (look f.expect q.src.toNat).getD 0
    if serialLe q.seq want then
      let t := receiveOrdered q s
      if (look t.pkg.fab.expect q.src.toNat).getD 0 = want && q.seq = want then back t else t
    else back s
  | 3 | 4 =>
    match findConn s q.ctxid q.cn with
    | none => s
    | some c => match c.out.find? (fun m => m.seq = q.seq) with
      | some m =>
        let t := landMessage q (m.op.map (·.val)) m.len m.nt s
        if t.pkg.fab.faults.length = f.faults.length then t else back t
      | none => s
  | 10 => receiveOpen q s
  | 6 =>
    let held := s.pkg.fab.gets.any (fun g => g.own.ctxid = q.ctxid && g.cn = q.cn && g.seq = q.seq
      && (sourceHeld s q.ctxid (2 ^ 64) (g.off + 256 * q.poff) 256 || gcwHeld g s))
    if q.aux.getLsbD 63 && held then back s else loopAnswer q s
  | _ => loopAnswer q s

/-- The loopback's packets are performed in the order of their arrival (R301). -/
def runLoop (s : State) : State :=
  s.pkg.fab.loop.foldl loopPacket (s.withPkg { s.pkg with fab := { s.pkg.fab with loop := [] } })

/-! ## The end of a context -/

/-- The connections of contexts that are no longer there close (R308): what waits is still sent, and a closed one is
forgotten; so is an OPEN that FABTMO has left without an answer (R308). -/
def reapConns (s : State) : State :=
  let s := s.withPkg { s.pkg with fab := { s.pkg.fab with opens := s.pkg.fab.opens.filter (fun o => age s o.since < tmoNs s.pkg.fab) } }
  let alive (ctx : W32) : Bool :=
    (s.c.live && s.c.id.ctxid = ctx) || (s.c2.live && s.c2.id.ctxid = ctx) || s.pkg.saved.any (fun v => v.id.ctxid = ctx)
  let s := (s.pkg.fab.conns.filter (fun c => !alive c.ctxid)).foldl (fun s c => closeConn c s) s
  s.withPkg { s.pkg with fab := { s.pkg.fab with
    conns := s.pkg.fab.conns.filter (fun c => alive c.ctxid || c.state ≠ .closed) } }

end Sys2Proof.Machine
end

