-- ==== Sys2Proof/Machine/Collect.lean ====
section
/-! DEFINITION. Collective operations: their start, the combining at this member's position, events and status (R322 to
R337). -/

namespace Sys2Proof.Machine

/-! ## Combining (R325 to R327) -/

/-- A list of bytes in pieces of w. -/
def piecesOf (w : Nat) (l : List Byte) : List Nat := (List.range (l.length / w)).map (fun i => ofBytes ((l.drop (w * i)).take w))

/-- The floating-point format of FMTC. -/
def chFp (e : List Byte) : FpFmt := match chFmt e with | 1 => fpFP16 | 2 => fpBF16 | _ => fpFP32

/-- Combine of one element (R326). -/
def combineElem (e : List Byte) (x y : Nat) : Nat :=
  if chFmt e = 7 then
    match chOp e with
    | 0 => (x + y) % 2 ^ 32
    | 1 => if sextN 32 x < sextN 32 y then y else x
    | _ => if sextN 32 y < sextN 32 x then y else x
  else
    let f := chFp e
    match chOp e with
    | 0 => (fpOp2 0 f fadd x y 0).1
    | 1 => (minMax f false true x y).1
    | _ => (minMax f false false x y).1

/-- Combine of two contributions. -/
def combineBytes (e : List Byte) (x y : List Byte) : List Byte :=
  if isSmerge e then
    let words (l : List Byte) : List W32 := (piecesOf 4 l).map (BitVec.ofNat 32)
    (partialWords (mergePartial (partialOf (words x)) (partialOf (words y)))).flatMap (fun w => bytesOf 4 w.toNat)
  else
    let w := chWidth e
    (List.zipWith (combineElem e) (piecesOf w x) (piecesOf w y)).flatMap (bytesOf w)

/-- The value that a position sends upward, from those available (R325): in tree order left, own, right; in arrival order as
they became available. An all-gather strings its blocks in the order of positions. -/
def combineUp (e : List Byte) (vals : List (Nat × List Byte)) : List Byte :=
  let inOrder := [0, 1, 2].filterMap (fun i => (vals.find? (fun v => v.1 = i)).map Prod.snd)
  if chKind e = 4 then inOrder.flatten
  else match (if chArrival e then vals.map Prod.snd else inOrder) with
    | [] => []
    | x :: r => r.foldl (combineBytes e) x

/-! ## Packets -/

/-- AUX of a collective packet (log 24): channel, tree, direction, position, operation. -/
def collAux (p : CollPkt) : W64 :=
  BitVec.ofNat 64 (2 ^ 63 + p.op % 2 ^ 31 * 2 ^ 32 + p.pos % 2 ^ 16 * 2 ^ 16 + (if p.up then 512 else 0)
    + (if p.treeB then 256 else 0) + p.chan.toNat)

/-- What an operation's first packet carries (R321). -/
def headOf (s : State) (e : List Byte) : CollHead := ⟨chKind e, chFmt e, chOp e, chN e, memberCount s (chGid e)⟩

/-- ADDR of a message's first packet (R321, log 24): KIND [3:0], FMTC [7:4], OP [11:8], N [28:12], M [47:29]. -/
def headAddr (h : CollHead) : Nat :=
  h.kind % 16 + h.fmt % 16 * 2 ^ 4 + h.op % 16 * 2 ^ 8 + h.n % 2 ^ 17 * 2 ^ 12 + h.m % 2 ^ 19 * 2 ^ 29

/-- A message of a collective goes to the package of a rank, in packets of at most 256 bytes on the ordered path (R324), the
first with KIND, FMTC, OP, N and M (R321); one for another core of this package does not leave it. -/
def sendColl (own : Owner) (rank : Nat) (gid : BitVec 8) (p : CollPkt) (s : State) : State :=
  match (rankNodes s gid)[rank]? with
  | none => s
  | some node =>
    if node = s.pkg.nodeid then s
    else
      (List.range (max 1 ((p.data.length + 255) / 256))).foldl (fun s i =>
        let addr := if i = 0 then (p.head.map headAddr).getD 0 else 0
        inject { request 13 node addr (collAux p) ((p.data.drop (256 * i)).take 256) s with ctxid := own.ctxid, poff := i } s) s

/-! ## Operations in progress -/

/-- Nothing of a half has come. -/
def TreeHalf.fresh : TreeHalf := ⟨[], false, none, false⟩

/-- Operation k as the first thing that comes for it finds it. -/
def CollOp.fresh (k : Nat) : CollOp := ⟨k, 0, [], false, TreeHalf.fresh, TreeHalf.fresh, false, false, none⟩

/-- Operation k of a channel, and the channel with it replaced. -/
def collOp (c : Chan) (k : Nat) : CollOp := (c.ops.find? (fun o => o.k = k)).getD (CollOp.fresh k)
def Chan.withOp (c : Chan) (o : CollOp) : Chan := { c with ops := c.ops.filter (fun x => x.k ≠ o.k) ++ [o] }

/-- One half of an operation. -/
def CollOp.half (o : CollOp) (b : Bool) : TreeHalf := if b then o.b else o.a
def CollOp.withHalf (o : CollOp) (b : Bool) (h : TreeHalf) : CollOp := if b then { o with b := h } else { o with a := h }

/-- The channel's owner; `Owner.none` where there is none. -/
def chanOwner (c : Chan) : Owner := c.owner.getD Owner.none

/-- The result slot of operation k (R320). -/
def resultSlot (c : Chan) (k : Nat) : Nat := chDst c.ent + k % max 1 (chDepth c.ent) * chDStride c.ent

/-- The bytes of a half of the result at their offsets in the result slot (R324, R327). -/
def resultCells (s : State) (c : Chan) (k : Nat) (b : Bool) (d : List Byte) : Cells :=
  let e := c.ent
  let off := resultSlot c k + (if b then chHalf e false else 0)
  if chKind e = 4 then
    let m := memberCount s (chGid e)
    let n := chHalf e b
    (List.range m).flatMap (fun i => cellsAt (off + rankAt b (i + 1) m * chSlot e) ((d.drop (n * i)).take n))
  else cellsAt off d

/-- The member state's owner is resident. -/
def ownerHere (s : State) (c : Chan) : Bool :=
  match c.owner with
  | some o => ownedBy o s.c || ownedBy o s.c2
  | none => false

/-- A half that has come down for operation k is written into the result slot, where the owner is here; else it is held
(R322). -/
def putHalf (ch : BitVec 8) (k : Nat) (b : Bool) (s : State) : State :=
  let c := chanAt s ch
  let o := collOp c k
  let h := o.half b
  match h.res with
  | none => s
  | some d =>
    if h.put || !ownerHere s c then s
    else landBuf (chanOwner c) false (resultCells s c k b d) (setChan ch (c.withOp (o.withHalf b { h with put := true })) s)

/-- The result of a half comes down: it is kept, written into the result slot, and passed on to the position's children
(R325). A half without elements travels nowhere (R324). -/
def comeDown (ch : BitVec 8) (k : Nat) (b : Bool) (d : List Byte) (s : State) : State :=
  let c := chanAt s ch
  let e := c.ent
  let m := memberCount s (chGid e)
  let q := posOf b (ownRank s (chGid e)) m
  let o := collOp c k
  if (o.half b).res.isSome then s
  else
    let order := if ownerHere s c then c.order else c.order ++ [(k, b)]
    let s := putHalf ch k b (setChan ch { (c.withOp (o.withHalf b { o.half b with res := some d })) with order := order } s)
    if chHalf e b = 0 then s
    else ([treeChild true q m, treeChild false q m].filterMap id).foldl (fun s x =>
      sendColl (chanOwner c) (rankAt b x m) (chGid e) ⟨ch, k, b, false, q, some (headOf s e), d⟩ s) s

/-- The values that a position combines: its own and those of its subtrees (R325). -/
def valuesNeeded (q m : Nat) : Nat :=
  1 + (if (treeChild true q m).isSome then 1 else 0) + (if (treeChild false q m).isSome then 1 else 0)

/-- Once every value of a half is available their combination goes up, or, at the root, is the result (R325); no packet of an
operation that carries REL leaves before its release (R331). -/
def goUp (ch : BitVec 8) (k : Nat) (b : Bool) (s : State) : State :=
  let c := chanAt s ch
  let e := c.ent
  let m := memberCount s (chGid e)
  let q := posOf b (ownRank s (chGid e)) m
  let o := collOp c k
  let h := o.half b
  if h.sent || o.waits.isSome || h.vals.length < valuesNeeded q m then s
  else
    let v := combineUp e h.vals
    let s := setChan ch (c.withOp (o.withHalf b { h with sent := true })) s
    if q = treeRoot m then comeDown ch k b v s
    else sendColl (chanOwner c) (rankAt b (treeParent q m) m) (chGid e) ⟨ch, k, b, true, q, some (headOf s e), v⟩ s

/-- A value becomes available at this position: 0 from the left, 1 its own, 2 from the right. -/
def offer (ch : BitVec 8) (k : Nat) (b : Bool) (i : Nat) (d : List Byte) (s : State) : State :=
  let c := chanAt s ch
  let o := collOp c k
  let h := o.half b
  if h.vals.any (fun v => v.1 = i) then s
  else goUp ch k b (setChan ch (c.withOp (o.withHalf b { h with vals := h.vals ++ [(i, d)] })) s)

/-! ## Events (R328) -/

/-- An event word is written (R328): 0 SR, 1 LR, 2 AF. -/
def writeEvent (c : Chan) (i n : Nat) (s : State) : State :=
  landWord (chanOwner c) (some (false, chEv c.ent + 4 * i, BitVec.ofNat 32 n)) s

/-- How far a count of operations reaches when operation after operation meets a condition; the first argument bounds it. -/
def countUp (p : Nat → Bool) : Nat → Nat → Nat
  | 0, k => k
  | n + 1, k => if p k then countUp p n (k + 1) else k

/-- Operation k has its whole result here (R328). -/
def resultHere (c : Chan) (k : Nat) : Bool :=
  let o := collOp c k
  if chKind c.ent = 1 then o.landed else o.a.put && o.b.put

/-- Operation k is finished everywhere (R328). -/
def allFinished (s : State) (c : Chan) (k : Nat) : Bool :=
  if chKind c.ent = 1 then
    if isSender s c.ent then (collOp c k).fin else k < c.issued && k < c.lr
  else k < c.lr && ((collOp c k).fin || memberCount s (chGid c.ent) = 1)

/-- The counts of LR and AF rise as far as they can, their words are written, and a receiver's releases are told to the
sender (R328, R335); on a faulted channel no event is raised any more (R332). -/
def settleChan (ch : BitVec 8) (s : State) : State :=
  let c := chanAt s ch
  if c.fault then s else
  let lr := countUp (resultHere c) (c.ops.length + 1) c.lr
  let c1 := { c with lr := lr }
  let af := countUp (allFinished s c1) (c.ops.length + c.issued + 1) c.af
  let c2 := { c1 with af := af, ops := c.ops.filter (fun o => !(o.k < c.sr && o.k < lr && o.k < af)) }
  let s := setChan ch c2 s
  let s := if lr = c.lr then s else writeEvent c2 1 lr s
  let s := if af = c.af then s else writeEvent c2 2 af s
  if chKind c.ent = 1 && !isSender s c.ent then
    (span c.af (af - c.af)).foldl (fun s k =>
      sendColl (chanOwner c2) (chRoot c.ent) (chGid c.ent) ⟨ch, k, false, true, 0, none, []⟩ s) s
  else s

/-- SR of the oldest operation that has not raised it (R328). -/
def raiseSr (ch : BitVec 8) (s : State) : State :=
  let c := chanAt s ch
  if c.fault || c.issued ≤ c.sr then s
  else
    let c := { c with sr := c.sr + 1 }
    settleChan ch (writeEvent c 0 c.sr (setChan ch c s))

/-! ## Receipt -/

/-- A message for this member (R325, R327, R328). -/
def meetPacket (p : CollPkt) (s : State) : State :=
  let c := chanAt s p.chan
  let e := c.ent
  let m := memberCount s (chGid e)
  let q := posOf p.treeB (ownRank s (chGid e)) m
  let o := collOp c p.op
  let mark (o : CollOp) : State := setChan p.chan (c.withOp o) s
  if chKind e = 1 then
      if !p.up then
        if isSender s e || o.landed then s
        else
          let s := landBuf (chanOwner c) false (cellsAt (resultSlot c p.op) (p.data.take (chSlot e))) (mark { o with landed := true })
          sendColl (chanOwner c) (chRoot e) (chGid e) ⟨p.chan, p.op, false, true, 1, none, []⟩ s
      else if !isSender s e then s
      else if p.pos = 1 then mark { o with landed := true }
      else mark { o with fin := true }
  else if p.up && p.pos = 0 then mark { o with fin := true }
  else if !p.up then comeDown p.chan p.op p.treeB p.data s
  else if chKind e = 3 then (if q = treeRoot m then comeDown p.chan p.op p.treeB p.data s else s)
  else if treeChild true q m = some p.pos then offer p.chan p.op p.treeB 0 p.data s
  else if treeChild false q m = some p.pos then offer p.chan p.op p.treeB 2 p.data s
  else s

/-- COLL_PACKET_RECEIPT (R321, R322, R325): a first message with another KIND, FMTC, OP, N or M faults the channel. The merge
unit of the router does its member's part whoever is resident (R324); what reaches the member's result slots and event words
waits for the context that owns the member state. -/
def receiveColl (p : CollPkt) (s : State) : State :=
  let c := chanAt s p.chan
  if chKind c.ent = 0 || c.fault then s
  else if p.head.any (fun h => h ≠ headOf s c.ent) then faultChan .channel s p.chan.toNat
  else if ownerHere s c then settleChan p.chan (meetPacket p s)
  else if chKind c.ent = 1 then setChan p.chan { c with early := c.early ++ [p] } s
  else meetPacket p s

def execCollPacketReceipt (p : CollPkt) (s : State) : Host.Outcome State Fault Refusal := event (receiveColl p s)

/-- SOURCE_READ_COMPLETE (R328). -/
def execSourceReadComplete (ch : BitVec 8) (s : State) : Host.Outcome State Fault Refusal :=
  event (if ownerHere s (chanAt s ch) then raiseSr ch s else s)

/-- What was held for a member is met in the order of arrival once its owner is here (R322). -/
def meetEarly (s : State) (ch : Nat) : State :=
  let c := chanAt s (BitVec.ofNat 8 ch)
  if c.fault || !ownerHere s c then s
  else
    let s := c.order.foldl (fun s x => putHalf (BitVec.ofNat 8 ch) x.1 x.2 s) s
    let s := setChan (BitVec.ofNat 8 ch) { chanAt s (BitVec.ofNat 8 ch) with order := [], early := [] } s
    settleChan (BitVec.ofNat 8 ch) (c.early.foldl (fun s p => meetPacket p s) s)

/-! ## Checks (R334) -/

/-- Bytes of AS that lie in plain regions; adjoining regions together may hold them. The first argument bounds the
regions. -/
def inPlain : Nat → List Region → Nat → Nat → Bool
  | 0, _, _, n => n = 0
  | k + 1, rs, off, n =>
    n = 0 || match rs.find? (fun r => !r.cb && !r.phased && r.base ≤ off && off < r.base + r.size) with
      | none => false
      | some r => inPlain k rs (r.base + r.size) (n - (r.base + r.size - off))

/-- Every slot and the event words lie in plain AS regions of the running context (R320). -/
def slotsPlain (s : State) (e : List Byte) : Bool :=
  let rs := s.c.regions
  let ok (off n : Nat) : Bool := inPlain (rs.length + 1) rs off n
  let m := if chKind e = 4 then memberCount s (chGid e) * chSlot e else chSlot e
  ok (chEv e) 16 && (List.range (chDepth e)).all (fun i =>
    ok (chSrc e + i * chSStride e) (chSlot e) && ok (chDst e + i * chDStride e) m)

/-- Another context owns the member state (R322). -/
def ownedElsewhere (s : State) (c : Chan) : Bool :=
  match c.owner with
  | some o => o.ctxid ≠ s.c.id.ctxid
  | none => false

/-- The checks of a channel operation in their order; `kind` is the KIND that the instruction requires. -/
def chanCheck (kind : Option Nat) (ch : BitVec 8) (s : State) : Res Chan := do
  let c := chanAt s ch
  let e := c.ent
  need (chKind e ≠ 0 && !malformedChan s e && (kind = none || kind = some (chKind e))) .channel
  need (isMember s (chGid e) && s.c.id.gids.contains (chGid e) && !ownedElsewhere s c) .channel
  need (!c.fault) .channel
  need (!s.pkg.aborted.contains (chGid e)) .groupAbort
  need (slotsPlain s e) .bounds
  .ok c

/-- The member state is the running context's (R322). -/
def takeMember (ch : BitVec 8) (c : Chan) (s : State) : State :=
  if c.owner.isSome then s
  else meetEarly (setChan ch { c with owner := some (ownerOf s) } s) ch.toNat

/-- The conditions of R196 at a scope for a release of the running context that it issued at a group count. -/
def mayRelease (scope gc : Nat) (s : State) : Bool :=
  !s.c.ops.any (fun o => !o.readOnly && !o.isStat && o.gc < gc) && !deferredLeft s && !(3 ≤ scope && remoteUnpublished s)

/-! ## Starting an operation (R334) -/

/-- The source's bytes that one half carries (R324). -/
def halfBytes (e : List Byte) (src : List Byte) (b : Bool) : List Byte :=
  if b then src.drop (chHalf e false) else src.take (chHalf e false)

/-- The own contribution of a RED or AGAT becomes available (R325). -/
def offerOwn (ch : BitVec 8) (k : Nat) (src : List Byte) (s : State) : State :=
  let e := (chanAt s ch).ent
  if chKind e = 1 || chKind e = 3 then s
  else [false, true].foldl (fun s b => if chHalf e b = 0 then comeDown ch k b [] s else offer ch k b 1 (halfBytes e src b) s) s

/-- What an operation of this member sends of its own accord: the message of a P2P sender, the root's bytes of a BCAST, and of a
RED or AGAT what its halves have to send by now. -/
def firstPacket (ch : BitVec 8) (k : Nat) (src : List Byte) (s : State) : State :=
  let c := chanAt s ch
  let e := c.ent
  let m := memberCount s (chGid e)
  match chKind e with
  | 1 => sendColl (chanOwner c) (1 - chRoot e) (chGid e) ⟨ch, k, false, false, 0, some (headOf s e), src⟩ s
  | 3 =>
    if !isSender s e then s
    else [false, true].foldl (fun s b =>
      let q := posOf b (ownRank s (chGid e)) m
      if chHalf e b = 0 then s
      else if q = treeRoot m then comeDown ch k b (halfBytes e src b) s
      else sendColl (chanOwner c) (rankAt b (treeRoot m) m) (chGid e)
        ⟨ch, k, b, true, q, some (headOf s e), halfBytes e src b⟩ s) s
  | _ => goUp ch k true (goUp ch k false s)

/-- A half that carries nothing is there at once (N = 1, smerge). -/
def emptyHalf (ch : BitVec 8) (k : Nat) (s : State) : State :=
  let e := (chanAt s ch).ent
  if chKind e ≠ 1 && chHalf e true = 0 then comeDown ch k true [] s else s

/-- The first packets of the operations that carry REL leave once what they follow has been performed and published (R331). -/
def releaseColl (ch : BitVec 8) (s : State) : State :=
  let c := chanAt s ch
  c.ops.foldl (fun s o => match o.waits with
    | none => s
    | some gc =>
      let may : Bool := if (chanOwner c).ctxid = s.c.id.ctxid then mayRelease (chScope c.ent) gc s
        else mayRelease (chScope c.ent) gc (swapCtx s)
      if c.fault || !ownerHere s c || !may then s
      else
        let c := chanAt s ch
        settleChan ch (firstPacket ch o.k o.src (setChan ch (c.withOp { collOp c o.k with waits := none }) s))) s

/-- The engine goes on: held messages are met, released operations leave, and every source slot of a resident owner has been
read (R328). -/
def collProgress (s : State) : State :=
  (s.pkg.chans.map Prod.fst).foldl (fun s ch =>
    let s := releaseColl (BitVec.ofNat 8 ch) (meetEarly s ch)
    let c := chanAt s (BitVec.ofNat 8 ch)
    if ownerHere s c then (List.range (c.issued - c.sr)).foldl (fun s _ => raiseSr (BitVec.ofNat 8 ch) s) s else s) s

/-- The bytes of AS that the source slot of operation k of a channel holds (R320). -/
def sourceSlot (e : List Byte) (k : Nat) : List Nat := span (chSrc e + k % max 1 (chDepth e) * chSStride e) (chSlot e)

/-- Operation k := ISSUED starts: its source slot is read as the group finds it (R329), and its own value is available from
now on (R325); with REL its first packet waits (R331). -/
def startColl (ch : BitVec 8) (rel : Bool) (s : State) : State :=
  let (no, s) := nextEngine s
  let c := chanAt s ch
  let e := c.ent
  let k := c.issued
  let src := if usesSource s e then (sourceSlot e k).map (getByte s.core.as) else []
  let waits := if rel && usesSource s e && !mayRelease (chScope e) s.c.gc (atStart s) then some s.c.gc else none
  let o := { collOp c k with no := no, src := src, waits := waits }
  let s := setChan ch { (c.withOp o) with issued := k + 1 } s
  let s := if usesSource s e then s else raiseSr ch s
  let s := offerOwn ch k src s
  settleChan ch (emptyHalf ch k (if waits.isSome then s else firstPacket ch k src s))

/-- `ch.send`, `ch.red`, `ch.bcast` and `ch.agat` (R334). -/
def startChannel (kind : Nat) (g : Fin 16) (rel : Bool) (a : Src) (s : State) : Host.Outcome State Fault Refusal :=
  guarded g s (fun s => do
    let (x, t, s) ← srcS a s
    let ch := x.extractLsb' 0 8
    let c ← chanCheck (some kind) ch s
    need (kind ≠ 1 || isSender s c.ent) .channel
    if chDepth c.ent ≤ chanOut s c then .error (.depth ch)
    else
      soundBuf false (if usesSource s c.ent then sourceSlot c.ent c.issued else []) s
      engineReady (t || predTaint s.c (guardReg g)) s
      .ok (startColl ch rel (takeMember ch c (emit s))))

def execChSend (g : Fin 16) (rel : Bool) (a : Src) (s : State) : Host.Outcome State Fault Refusal := startChannel 1 g rel a s
def execChRed (g : Fin 16) (rel : Bool) (a : Src) (s : State) : Host.Outcome State Fault Refusal := startChannel 2 g rel a s
def execChBcast (g : Fin 16) (rel : Bool) (a : Src) (s : State) : Host.Outcome State Fault Refusal := startChannel 3 g rel a s
def execChAgat (g : Fin 16) (rel : Bool) (a : Src) (s : State) : Host.Outcome State Fault Refusal := startChannel 4 g rel a s

/-- `ch.recv` (R335): the wait keeps the next group until the message has landed; its release follows the landing. -/
def execChRecv (g : Fin 16) (a : Src) (s : State) : Host.Outcome State Fault Refusal :=
  guarded g s (fun s => do
    let (x, t, s) ← srcS a s
    let ch := x.extractLsb' 0 8
    let c ← chanCheck (some 1) ch s
    need (!isSender s c.ent) .channel
    if chDepth c.ent ≤ chanOut s c then .error (.depth ch)
    else
      engineReady (t || predTaint s.c (guardReg g)) s
      let s := takeMember ch c (emit s)
      let (no, s) := nextEngine s
      let c := chanAt s ch
      let s := setChan ch { (c.withOp { collOp c c.issued with no := no }) with issued := c.issued + 1 } s
      .ok (waitFor (.chRecv ch) (settleChan ch (raiseSr ch s))))

/-- The number of an event's word (R328). -/
def evIndex : ChEvent → Nat
  | .sr => 0 | .lr => 1 | .af => 2

/-- `ch.wait` (R336). -/
def execChWait (g : Fin 16) (ev : ChEvent) (_acq : Bool) (a b : Src) (s : State) : Host.Outcome State Fault Refusal :=
  guarded g s (fun s => do
    let (x, y, _, s) ← srcSS a b s
    let ch := x.extractLsb' 0 8
    let c ← chanCheck none ch s
    .ok (waitFor (.chWait ch ev (y.extractLsb' 0 32)) (takeMember ch c s)))

/-- What `ch.q` reads (R337). -/
def chanStatus (ch : BitVec 8) (s : State) : W64 :=
  let c := chanAt s ch
  let gid := chGid c.ent
  let own : Bool := (c.owner.map (fun o => decide (o.ctxid = s.c.id.ctxid))).getD false
  if chKind c.ent = 0 || !isMember s gid then 0
  else BitVec.ofNat 64 (ownRank s gid % 2 ^ 16 * 2 ^ 48 + memberCount s gid % 2 ^ 16 * 2 ^ 32 + c.issued % 2 ^ 24 * 2 ^ 8
    + (if c.fault then 128 else 0) + (if own then 64 else 0) + chanOut s c % 32)

/-- `ch.q` (R337). -/
def execChQ (g : Fin 16) (d : Reg) (b : Src) (s : State) : Host.Outcome State Fault Refusal :=
  guarded g s (fun s => do
    let (y, t, s) ← srcS b s
    writeReg d (chanStatus (y.extractLsb' 0 8) (atStart s)) (t || predTaint s.c (guardReg g)) 1 s)

/-! ## Waits -/

/-- The condition of a channel wait holds (R335, R336). -/
def chanWaitDone (s : State) (w : Wait) : Bool :=
  match w with
  | .chRecv ch => (chanAt s ch).issued ≤ (chanAt s ch).lr
  | .chWait ch ev op =>
    let word := BitVec.ofNat 32 (getNum s.core.as (chEv (chanAt s ch).ent + 4 * evIndex ev) 4)
    !(word - op).msb
  | .word _ _ _ _ | .barrier _ _ _ | .rejoin | .msync | .pmt _ => true

/-- Channel entries are filled anew at a launch (R319): the member state with them. -/
def fillChan (i : Nat) (rec : List Byte) (s : State) : State := setChan (BitVec.ofNat 8 i) { Chan.unused with ent := rec } s

end Sys2Proof.Machine
end

