-- ==== Sys2Proof/Machine/Attention.lean ====
section
/-! DEFINITION. Sequences and units, partial attention at the roots, queries, appends, rebalancing, the pool tier and the
prefix table (R338 to R369, R436 to R438). -/

namespace Sys2Proof.Machine

/-! ## Geometry (R338) -/

/-- The element size in bytes. -/
def seqEsz (e : SeqEntry) : Nat := widthOf e.efmt / 8

/-- T, the tokens of a unit. -/
def unitTokens (e : SeqEntry) : Nat := 2 ^ e.logt

/-- UB and FB: the bytes of a unit, and of its range. -/
def unitBytes (e : SeqEntry) : Nat := unitTokens e * e.nl * e.nh * 2 * e.dh * seqEsz e
def rangeBytes (e : SeqEntry) : Nat :=
  let u := unitBytes e
  let k := Nat.log2 u
  max 65536 (2 ^ (if u = 2 ^ k then k else k + 1))

/-- The offset in the range of element 0 of the key or value of layer l, head h, token t. -/
def rowOffset (e : SeqEntry) (l h kv t : Nat) : Nat :=
  (((l * e.nh + h) * 2 + kv) * unitTokens e + t) * e.dh * seqEsz e

/-- A position is legal. -/
def posLegal (e : SeqEntry) (p : Nat) : Bool := p / unitTokens e < 2 ^ 30 && p < 2 ^ 32

/-! ## The position-map table (R339 to R343) -/

/-- The attention state replaced. -/
def State.withAttn (s : State) (a : Attn) : State := s.withPkg { s.pkg with attn := a }

/-- A sequence entry, and the entries with one replaced. -/
def seqOf (s : State) (id : W32) : Option SeqEntry := look s.pkg.attn.seqs id.toNat
def setSeq (e : SeqEntry) (s : State) : State :=
  s.withAttn { s.pkg.attn with seqs := put s.pkg.attn.seqs e.seqid.toNat e }

/-- A unit entry; none is ABSENT. -/
def unitOf_ (s : State) (id : W32) (u : Nat) : Option UnitEnt :=
  s.pkg.attn.units.find? (fun x => x.seqid = id && x.unit = u)

/-- A unit entry joins its sequence's in increasing unit number. -/
def insertUnit (x : UnitEnt) : List UnitEnt → List UnitEnt
  | [] => [x]
  | y :: r => if x.unit < y.unit then x :: y :: r else y :: insertUnit x r
def setUnit (x : UnitEnt) (s : State) : State :=
  s.withAttn { s.pkg.attn with
    units := insertUnit x (s.pkg.attn.units.filter (fun y => !(y.seqid = x.seqid && y.unit = x.unit))) }
def dropUnit (id : W32) (u : Nat) (s : State) : State :=
  s.withAttn { s.pkg.attn with units := s.pkg.attn.units.filter (fun y => !(y.seqid = id && y.unit = u)) }

/-- The frames of 64 KiB of a range. -/
def rangeFrames (base n : Nat) : List Nat := (List.range (n / 65536)).map (fun i => base + 65536 * i)

/-- The holders of a unit by the rule, or as TAILU gives them (R342). -/
def holdersOf (e : SeqEntry) (u : Nat) : BitVec 12 × Option (BitVec 12) :=
  let l := e.holders
  let h := l.length
  match (if u = e.tailu then e.tpri else none) with
  | some p => (p, e.tmir)
  | none => (l.getD (u % h) 0, if e.mir && 2 ≤ h then l[(u + 1) % h]? else none)

/-- Another unit entry has room (R339). -/
def unitRoom (s : State) : Bool := s.pkg.attn.units.length < 262144

/-- Another sequence entry with n holders has room (R339). -/
def seqRoom (s : State) (n : Nat) : Bool :=
  s.pkg.attn.seqs.length < 512 && (s.pkg.attn.seqs.map (fun x => x.2.holders.length)).sum + n ≤ 65536

/-- The MMP allocates a cleared and pinned range in stack u mod 8 (R343); none where its allocator gives no aligned range
of unpinned frames there (log 9). -/
def allocRange (e : SeqEntry) (u : Nat) (s : State) : Option (Nat × State) :=
  let n := rangeBytes e
  let pa := Config.allocFrame (s.tick * 2 ^ 20 + s.pkg.attn.units.length) n (u % 8)
  if pa % n ≠ 0 || pa / 2 ^ 36 ≠ u % 8 || rangeGone s.pkg.hbm pa n || (rangeFrames pa n).any (fun f => 0 < pinsOf s.pkg f) then none
  else
    let s := writeMem ((cellsIn s.pkg.mem pa n).map (fun c => (c.1, 0))) s
    some (pa, s.withPkg (pinFrames (rangeFrames pa n) (clearRange pa n s.pkg)))

/-- A range is released (R343). -/
def freeRange (e : SeqEntry) (pa : Nat) (s : State) : State := s.withPkg (unpinFrames (rangeFrames pa (rangeBytes e)) s.pkg)

/-- A unit entry becomes ABSENT: its HBM ranges are released, a pool range is left (R343). -/
def absentUnit (e : SeqEntry) (x : UnitEnt) (s : State) : State :=
  let s := dropUnit x.seqid x.unit s
  let s := if x.state = .paging || x.state = .copying then freeRange e x.fresh s else s
  if x.tier1 || x.state = .copying then s else freeRange e x.frame s

/-! ## Packets of attention -/

/-- A request goes to another member on the ordered path (R349): its layout is the model's own (log 24). -/
def sendAttn (own : Owner) (node : BitVec 12) (what : Nat) (data : List Byte) (s : State) : State :=
  (List.range (max 1 ((data.length + 255) / 256))).foldl (fun s i =>
    inject { request 14 node 0 (BitVec.ofNat 64 what) ((data.drop (256 * i)).take 256) s with ctxid := own.ctxid, poff := i } s) s

/-- The contents of the model's attention packets, by their kinds (log 24): 0 a query, 1 a partial or a result, 2 STALE for a
query, 3 an append performed, 4 a request rejected with its cause, 5 an append, 6 a write of the table, 7 the question of a
rebalance, 8 a unit's bytes, 9 a unit's place, 10 the answer, 11 the step, 12 the issuer gives up. -/
def nodeBytes (n : Option (BitVec 12)) : List Byte := bytesOf 2 ((n.map BitVec.toNat).getD 0xFFFF)
def queryBytes (q : Query) : List Byte :=
  bytesOf 4 q.qid ++ bytesOf 2 q.from_.toNat ++ bytesOf 4 q.seqid.toNat ++ bytesOf 2 q.layer ++ bytesOf 2 q.head ++ bytesOf 4 q.lo
    ++ bytesOf 4 q.hi ++ bytesOf 4 q.scale.toNat ++ bytesOf 2 q.gen.toNat ++ bytesOf 1 q.arr.toNat
    ++ bytesOf 2 ((q.units.map List.length).getD 0xFFFF) ++ (q.units.getD []).flatMap (bytesOf 4)
    ++ q.q.flatMap (fun w => bytesOf 4 w.toNat) ++ bytesOf 2 q.holders.length ++ q.holders.flatMap (fun n => bytesOf 2 n.toNat)
def replyOf (q : Query) (rank : Nat) (r : HolderReply) : List Byte :=
  bytesOf 4 q.qid ++ bytesOf 2 q.from_.toNat ++ bytesOf 2 rank ++ bytesOf 1 r.stale.toNat ++ bytesOf 4 r.part.count
    ++ bytesOf 4 r.misses.length ++ (partialWords r.part).flatMap (fun w => bytesOf 4 w.toNat)
    ++ r.misses.flatMap (fun m => bytesOf 4 m.unit ++ bytesOf 2 m.pri.toNat)
def appendBytes (r : Append) : List Byte :=
  bytesOf 4 r.aid ++ bytesOf 2 r.from_.toNat ++ bytesOf 4 r.seqid.toNat ++ bytesOf 4 r.pos ++ bytesOf 2 r.layer
    ++ bytesOf 2 r.nlay ++ bytesOf 2 r.gen.toNat ++ bytesOf 1 r.primary.toNat ++ r.data
def rejectBytes (n : Nat) (c : Cause) : List Byte := bytesOf 4 n ++ bytesOf 1 (causeCode c)
def writeBytes (n : Nat) (e : SeqEntry) (remove : Bool) (img : List Byte) : List Byte :=
  bytesOf 4 n ++ bytesOf 1 remove.toNat ++ img ++ e.holders.flatMap (fun h => bytesOf 2 h.toNat)
def stepBytes (r : RebalStep) : List Byte :=
  bytesOf 2 r.from_.toNat ++ bytesOf 4 r.seqid.toNat ++ bytesOf 2 r.lost.toNat ++ bytesOf 2 r.gen.toNat
    ++ (match r.tail with
      | none => [0]
      | some (u, p, m) => [1] ++ bytesOf 4 u ++ nodeBytes p ++ nodeBytes m)
def askBytes : RebalAsk → List Byte
  | .ask id gen n lost => bytesOf 4 id.toNat ++ bytesOf 2 gen.toNat ++ bytesOf 2 n.toNat ++ bytesOf 2 lost.toNat
  | .answer id n b => bytesOf 4 id.toNat ++ bytesOf 2 n.toNat ++ (match b with
    | none => [0]
    | some (u, p, m) => [1] ++ bytesOf 4 u ++ bytesOf 2 p.toNat ++ nodeBytes m)
  | .stale id n => bytesOf 4 id.toNat ++ bytesOf 2 n.toNat
  | .drop id n => bytesOf 4 id.toNat ++ bytesOf 2 n.toNat

/-- The package a request came from is this one. -/
def fromHere (s : State) (n : BitVec 12) : Bool := n = s.pkg.nodeid

/-! ## Late failures (R358) -/

/-- A failure of an operation is delivered to its context. -/
def attnFails (own : Owner) (c : Cause) (addr : Nat) (s : State) : State := lateTrap own ⟨c, BitVec.ofNat 64 addr, false⟩ s

/-- A completion word gets 1 added; that of an owner that is switched out, when it resumes (R357, log 93). -/
def addWord (own : Owner) (off : Nat) (s : State) : State := giveWord own (false, off, 1, true) s

/-! ## Partial attention at the roots (R345) -/

/-- The row of dh elements at a place, widened exactly to FP32. -/
def kvRow (s : State) (e : SeqEntry) (pa : Nat) : List Val :=
  let n := seqEsz e
  let f := match kindOf e.efmt with | .fp f => f | .int _ | .uint _ => fpFP32
  (List.range e.dh).map (fun d => f.value (getNum s.pkg.mem (pa + d * n) n))

/-- A position of a unit lies in the query's range, below FILL, and in its list. -/
def coveredAt (q : Query) (e : SeqEntry) (x : UnitEnt) (t : Nat) : Bool :=
  let p := x.unit * unitTokens e + t
  t < x.fill && q.lo ≤ p && p < q.hi && (match q.units with | some l => l.contains x.unit | none => true)

/-- The positions that a query covers in a unit, as tokens. -/
def coveredTokens (q : Query) (e : SeqEntry) (x : UnitEnt) : List Nat := (List.range (unitTokens e)).filter (coveredAt q e x)

/-- The partial of a unit (R345). -/
def unitPartial (s : State) (q : Query) (e : SeqEntry) (x : UnitEnt) : Partial :=
  let ts := coveredTokens q e x
  let qs := (q.q.map (fun w => val32 w.toNat))
  let row (kv t : Nat) : List Val := kvRow s e (x.frame + rowOffset e q.layer q.head kv t)
  let sc := ts.map (fun t => rn (prodVal (val32 q.scale.toNat) (sumVal (List.zipWith prodVal qs (row 0 t)))))
  match sc with
  | [] => emptyPartial e.dh
  | x0 :: r =>
    if sc.any (fun b => (val32 b).isNan || (val32 b).isInf) then nanPartial e.dh ts.length
    else
      let m := r.foldl (fun a b => (minMax fpFP32 false true a b).1) x0
      let w := sc.map (fun b => exp2Bits (rn (sumVal [val32 b, (val32 m).flip])))
      let vs := ts.map (row 1)
      { m := BitVec.ofNat 32 m
        l := BitVec.ofNat 32 (rn (sumVal (w.map val32)))
        o := (List.range e.dh).map (fun d =>
          BitVec.ofNat 32 (rn (sumVal (List.zipWith (fun b v => prodVal (val32 b) (v.getD d (.num (Exact.zero false)))) w vs))))
        count := ts.length }

/-- What a holder answers: the fold of its unit partials in increasing unit number (R347), and a tier miss for each of its
units that is in the pool tier or PAGING (R351, log 49). -/
def holderAnswer (s : State) (q : Query) (e : SeqEntry) : HolderReply :=
  let mine := s.pkg.attn.units.filter (fun x => x.seqid = q.seqid && (x.state = .valid || x.state = .paging))
  let near := mine.filter (fun x => !x.tier1)
  let far := mine.filter (fun x => x.tier1 || x.state = .paging)
  { part := near.foldl (fun p x => mergePartial p (unitPartial s q e x)) (emptyPartial e.dh)
    misses := far.map (fun x => ⟨x.unit, x.pri⟩)
    stale := false }

/-- Misses in increasing unit number. -/
def insertMiss (x : Miss) : List Miss → List Miss
  | [] => [x]
  | y :: r => if x.unit < y.unit then x :: y :: r else y :: insertMiss x r

/-- Two replies together (R346, R352). -/
def mergeReply (x y : HolderReply) : HolderReply :=
  ⟨mergePartial x.part y.part, y.misses.foldl (fun l m => insertMiss m l) x.misses, x.stale || y.stale⟩

/-- The value that a position sends upward: in tree order left, own, right; in arrival mode as they became available
(R347). -/
def foldReplies (arr : Bool) (vals : List (Nat × HolderReply)) : Option HolderReply :=
  let l := if arr then vals.map Prod.snd else [0, 1, 2].filterMap (fun i => (vals.find? (fun v => v.1 = i)).map Prod.snd)
  match l with
  | [] => none
  | x :: r => some (r.foldl mergeReply x)

/-! ## Queries -/

/-- The result of a query has reached its requester, here or elsewhere, from the root of its tree. -/
def answerAsk (q : Query) (rank : Nat) (r : HolderReply) (s : State) : State :=
  if fromHere s q.from_ then
    s.withAttn { s.pkg.attn with asks := s.pkg.attn.asks.map (fun a =>
      if a.qid = q.qid && a.got.isNone && !a.stale then { a with got := some r } else a) }
  else sendAttn Owner.none q.from_ 1 (replyOf q rank r) s

/-- A fold with all its values sends their combination on: to its parent's package, or from the root to the requester
(R347). -/
def foldUp (f : Fold) (s : State) : State :=
  let m := f.holders.length
  let p := f.rank + 1
  if f.vals.length < valuesNeeded p m then s
  else match foldReplies f.arr f.vals with
    | none => s
    | some r =>
      let s := s.withAttn { s.pkg.attn with folds := s.pkg.attn.folds.filter (fun x => x ≠ f) }
      if p = treeRoot m then answerAsk f.q f.rank r s
      else sendAttn Owner.none (f.holders.getD (treeParent p m - 1) 0) 1 (replyOf f.q f.rank r) s

/-- Which value of a position the partial of a holder's rank is: 0 its left child's, 2 its right child's. -/
def childOf (f : Fold) (rank : Nat) : Option Nat :=
  let m := f.holders.length
  if treeChild true (f.rank + 1) m = some (rank + 1) then some 0
  else if treeChild false (f.rank + 1) m = some (rank + 1) then some 2 else none

/-- A value of a fold that has none there yet. -/
def Fold.add (f : Fold) (i : Nat) (r : HolderReply) : Fold :=
  if f.vals.any (fun v => v.1 = i) then f else { f with vals := f.vals ++ [(i, r)] }

/-- A value joins the fold of a query at this package's position. -/
def joinFold (q : Query) (f : Fold) (i : Nat) (r : HolderReply) (s : State) : State :=
  if f.vals.any (fun v => v.1 = i) then s
  else
    let g := f.add i r
    let rest := s.pkg.attn.folds.filter (fun x => !(x.q.qid = q.qid && x.q.from_ = q.from_))
    foldUp g (s.withAttn { s.pkg.attn with folds := rest ++ [g] })

/-- The bytes of a result record that ACC reads (R352, R436). -/
def accBytes (dh : Nat) : Nat := 64 + 4 * dh

/-- The record that ACC merges with, as its result finds it: a byte that has been written since the issue, other than by a result,
is not known (R436, log 108). -/
def previousRecord (a : Ask) (base : Nat) (s : State) : List Byte :=
  (getBytes s.core.as base (accBytes a.dh)).mapIdx (fun i b =>
    if a.was[i]? = some b then b else Config.freeByte s.tick (base + i))

/-- The results that are still to come take the bytes that an engine has written for those of their records (R352). -/
def renewAsks (w : Cells) (s : State) : State :=
  s.withAttn { s.pkg.attn with asks := s.pkg.attn.asks.map (fun a =>
    match if a.own.ctxid = s.c.id.ctxid then regionAt s.c.regions false a.resOff (accBytes a.dh) else none with
    | some g => { a with was := a.was.mapIdx (fun i b => ((w.find? (fun c => c.1 = g.phys true a.resOff + i)).map Prod.snd).getD b) }
    | none => a) }

/-- The record of a completed query: STATUS stands first and is written last (R352, R438). -/
def writeResult (a : Ask) (r : HolderReply) (stale fail : Bool) (s : State) : State :=
  match regionAt s.c.regions false a.resOff (accBytes a.dh + 8 * a.maxMiss) with
  | none => s
  | some g =>
    let base := g.phys true a.resOff
    let was := previousRecord a base s
    let old (o n : Nat) : Nat := ofBytes ((was.drop o).take n)
    let prev : Partial := ⟨BitVec.ofNat 32 (old 4 4), BitVec.ofNat 32 (old 8 4),
      (List.range a.dh).map (fun d => BitVec.ofNat 32 (old (64 + 4 * d) 4)), old 12 4⟩
    let p := if a.acc then mergePartial prev r.part else r.part
    let nm := r.misses.length
    let st := 1 + (if stale then 2 else 0) + (if fail then 4 else 0) + (if 0 < nm then 8 else 0)
      + (if a.maxMiss < nm then 16 else 0) + (if (val32 p.m.toNat).isNan then 32 else 0)
    let st := if a.acc then st ||| (old 0 4) % 64 else st
    let body := bytesOf 4 p.m.toNat ++ bytesOf 4 p.l.toNat ++ bytesOf 4 p.count ++ bytesOf 4 nm
      ++ bytesOf 2 a.gen.toNat ++ List.replicate 42 0 ++ p.o.flatMap (fun w => bytesOf 4 w.toNat)
      ++ (r.misses.take a.maxMiss).flatMap (fun m => bytesOf 4 m.unit ++ bytesOf 2 m.pri.toNat ++ bytesOf 2 0)
    let s := landBuf a.own false (cellsAt base (bytesOf 4 st)) (landBuf a.own false (cellsAt (base + 4) body) s)
    renewAsks (cellsAt base (bytesOf 4 st ++ body)) s

/-- A query completes (R438): its record is written, and its context is told of a failure. -/
def completeAsk (a : Ask) (stale fail : Bool) (s : State) : State :=
  let bad := stale || fail
  let none_ : HolderReply := ⟨emptyPartial a.dh, [], false⟩
  let s := onOwner a.own (writeResult a (if bad then none_ else a.got.getD none_) stale fail) s
  let s := s.withAttn { s.pkg.attn with asks := s.pkg.attn.asks.filter (fun x => x.qid ≠ a.qid) }
  if bad then attnFails a.own (if stale then .staleGeneration else .nodeUnreachable) a.recOff s else s

/-- The owner of an operation is resident. -/
def ownerIn (s : State) (o : Owner) : Bool := ownedBy o s.c || ownedBy o s.c2

/-- A query of this package. -/
def onAsk (qid : Nat) (f : Ask → State → State) (s : State) : State :=
  match s.pkg.attn.asks.find? (fun a => a.qid = qid) with
  | some a => if ownerIn s a.own then f a s else s
  | none => s

/-- The generation of this package's entry is the tag (R349). -/
def genMatches (s : State) (id : W32) (gen : W16) : Bool := (seqOf s id).any (fun e => e.gen = gen)

/-- This package's position of a query's tree, with the values that have come so far (R347). -/
def foldOf (q : Query) (s : State) : Fold :=
  (s.pkg.attn.folds.find? (fun f => f.q.qid = q.qid && f.q.from_ = q.from_)).getD
    ⟨q, q.arr, (findIdx (fun n => n = s.pkg.nodeid) q.holders).getD 0, q.holders, []⟩

/-- What has completed a query first is acted on: the merged partial of every holder, or a STALE report (R352, R438). -/
def finishAsk (a : Ask) (s : State) : State :=
  match a.got with
  | some r => completeAsk a r.stale false s
  | none => if a.stale then completeAsk a true false s else s

/-- A STALE report reaches the requester (R438): the query is complete, unless its result has come before; its context acts on it
once it is there. -/
def reportStale (qid : Nat) (s : State) : State :=
  onAsk qid finishAsk (s.withAttn { s.pkg.attn with asks := s.pkg.attn.asks.map (fun a =>
    if a.qid = qid then { a with stale := a.got.isNone } else a) })

/-- The requester of a query is told STALE (R349, R438). -/
def tellStale (q : Query) (s : State) : State :=
  if fromHere s q.from_ then reportStale q.qid s
  else sendAttn Owner.none q.from_ 2 (bytesOf 4 q.qid) s

/-- The fold of a query as this package's own value finds it, with the partials of its children that came before the query did, in
the order of their arrival (R347), and the machine that no longer holds these. -/
def openFold (q : Query) (s : State) : Fold × State :=
  let a := s.pkg.attn
  let mine (x : Nat × BitVec 12 × Nat × HolderReply) : Bool := x.1 = q.qid && x.2.1 = q.from_
  let f := (a.early.filter mine).foldl (fun (f : Fold) x => match childOf f x.2.2.1 with
    | some i => f.add i x.2.2.2
    | none => f) (foldOf q s)
  (f, s.withAttn { a with early := a.early.filter (fun x => !mine x) })

/-- A query meets this holder (R345, R349, R438): under its generation it is computed; otherwise the requester is told STALE,
and an empty partial flagged STALE joins the tree. -/
def performQuery (q : Query) (s : State) : State :=
  let (f, s) := openFold q s
  match (seqOf s q.seqid).filter (fun e => e.gen = q.gen) with
  | some e => joinFold q f 1 (holderAnswer s q e) s
  | none => joinFold q f 1 ⟨emptyPartial q.q.length, [], true⟩ (tellStale q s)

/-- The owner of a request this package made to itself may be met now: at.q of a context that is away waits. -/
def queryReady (s : State) (q : Query) : Bool :=
  match s.pkg.attn.asks.find? (fun a => a.qid = q.qid && fromHere s q.from_) with
  | some a => ownerIn s a.own
  | none => true

/-! ## Appends (R344, R360) -/

/-- The bytes of an append at their places in the unit's range. -/
def appendCells (e : SeqEntry) (base t : Nat) (r : Append) : Cells :=
  let n := e.dh * seqEsz e
  (List.range (r.nlay * e.nh * 2)).flatMap (fun i =>
    let l := r.layer + i / (2 * e.nh)
    let h := i / 2 % e.nh
    cellsAt (base + rowOffset e l h (i % 2) t) ((r.data.drop (i * n)).take n))

/-- An append on an entry of VALID or MIRROR (R344). -/
def appendTo (e : SeqEntry) (x : UnitEnt) (r : Append) (s : State) : Except Cause State :=
  let t := r.pos % unitTokens e
  if x.tier1 then .error .pmt
  else if x.fill < t then .error .kvPos
  else .ok (setUnit { x with fill := max x.fill (t + 1), gen := e.gen } (writeMem (appendCells e x.frame t r) s))

/-- An append at this holder: its effect, or its cause of rejection; none where it is held (R344, R349). -/
def holderAppend (r : Append) (s : State) : Option (Except Cause State) :=
  match seqOf s r.seqid with
  | none => some (.error .staleGeneration)
  | some e =>
    if e.gen ≠ r.gen then some (.error .staleGeneration)
    else
      let u := r.pos / unitTokens e
      match unitOf_ s r.seqid u with
      | none =>
        if r.pos % unitTokens e ≠ 0 then some (.error .kvPos)
        else if !unitRoom s then some (.error .kvFull)
        else match allocRange e u s with
          | none => some (.error .kvFull)
          | some (pa, s) =>
            let (pri, mir) := holdersOf e u
            let x : UnitEnt := ⟨r.seqid, u, pa, 0, 1, if r.primary then .valid else .mirror, false, pri, mir, e.gen, 0, []⟩
            some (.ok (setUnit x (writeMem (appendCells e pa 0 r) s)))
      | some x =>
        match x.state with
        | .valid | .mirror => some (appendTo e x r s)
        | .paging | .copying => none

/-- An append of this package fails (R360). -/
def failAppend (aid : Nat) (c : Cause) (s : State) : State :=
  match s.pkg.attn.apps.find? (fun a => a.aid = aid) with
  | none => s
  | some a => attnFails a.own c a.recOff (s.withAttn { s.pkg.attn with apps := s.pkg.attn.apps.filter (fun x => x.aid ≠ aid) })

/-- An append that every holder has performed completes (R360). -/
def settleAppend (aid : Nat) (s : State) : State :=
  match s.pkg.attn.apps.find? (fun a => a.aid = aid) with
  | none => s
  | some a =>
    if a.here || a.away then s
    else
      let s := s.withAttn { s.pkg.attn with apps := s.pkg.attn.apps.filter (fun x => x.aid ≠ aid) }
      match a.cw with
      | some off => addWord a.own off s
      | none => s

/-- An append's operation changed. -/
def onApp (aid : Nat) (f : AppOp → AppOp) (s : State) : State :=
  s.withAttn { s.pkg.attn with apps := s.pkg.attn.apps.map (fun a => if a.aid = aid then f a else a) }

/-- What a holder tells the issuer of an append. -/
def tellAppend (r : Append) (x : Except Cause State) (s : State) : State :=
  match x with
  | .ok t =>
    if fromHere t r.from_ then settleAppend r.aid (onApp r.aid (fun a => { a with here := false }) t)
    else sendAttn Owner.none r.from_ 3 (bytesOf 4 r.aid) t
  | .error c =>
    if fromHere s r.from_ then failAppend r.aid c s else sendAttn Owner.none r.from_ 4 (rejectBytes r.aid c) s

/-- An append meets this holder; under PAGING or COPYING it is held, in the order of arrival (R344). -/
def performAppend (r : Append) (s : State) : State :=
  match holderAppend r s with
  | some x => tellAppend r x s
  | none =>
    match (seqOf s r.seqid).bind (fun e => unitOf_ s r.seqid (r.pos / unitTokens e)) with
    | some x => setUnit { x with held := x.held ++ [r] } s
    | none => s

/-- The held appends of an entry are performed, or rejected, in the order of arrival. -/
def releaseHeld (l : List Append) (s : State) : State := l.foldl (fun s r => performAppend r s) s
def rejectHeld (l : List Append) (s : State) : State := l.foldl (fun s r => tellAppend r (.error .pmt) s) s

/-! ## Sequence entries at a member (R362) -/

/-- The units of a sequence that this package holds. -/
def unitsOf (s : State) (id : W32) : List UnitEnt := s.pkg.attn.units.filter (fun x => x.seqid = id)

/-- A sequence is created, or removed with its units (R344, R362); none where the table has no room (R339). -/
def performWrite (e : SeqEntry) (remove : Bool) (s : State) : Option State :=
  if remove then
    match seqOf s e.seqid with
    | none => some s
    | some old =>
      let s := (unitsOf s e.seqid).foldl (fun s x => rejectHeld x.held (absentUnit old x s)) s
      some (s.withAttn { s.pkg.attn with seqs := del s.pkg.attn.seqs e.seqid.toNat })
  else if (seqOf s e.seqid).isNone && !seqRoom s e.holders.length then none
  else some (setSeq e s)

/-! ## Requests in order (R349, R350) -/

/-- The sequence that a request names. -/
def reqSeq : AttnReq → W32
  | .query q => q.seqid
  | .append r => r.seqid
  | .write e _ _ _ => e.seqid
  | .tierOut id _ _ _ _ => id

/-- A rebalance of the sequence gathers: this package has answered an issuer, or is one (R350). -/
def gathers (s : State) (id : W32) : Bool := s.pkg.attn.gathering.any (fun x => x.1 = id)

/-- A write of the table that a member could not apply, or did not answer: its context traps at its next group (R362). -/
def failWrite (n : Nat) (c : Cause) (s : State) : State :=
  match s.pkg.attn.pmts.find? (fun p => p.n = n) with
  | none => s
  | some p => attnFails p.own c p.recOff (s.withAttn { s.pkg.attn with pmts := s.pkg.attn.pmts.filter (fun x => x.n ≠ n) })

/-- This package has applied its own write of the table. -/
def pmtApplied (n : Nat) (s : State) : State :=
  s.withAttn { s.pkg.attn with pmts := s.pkg.attn.pmts.map (fun p => if p.n = n then { p with here := false } else p) }

/-- A unit of this package moves to the pool tier (R344, R362). -/
def moveOut (e : SeqEntry) (x : UnitEnt) (frame poolPa : Nat) (s : State) : State :=
  setUnit { x with tier1 := true, frame := frame, poolPa := poolPa, gen := e.gen } (freeRange e x.frame s)

/-- A write of the table is performed here; its issuer is told where there is no room (R339, R362). -/
def meetWrite (e : SeqEntry) (remove : Bool) (from_ : BitVec 12) (n : Nat) (s : State) : State :=
  match performWrite e remove s with
  | some t => if fromHere s from_ then pmtApplied n t else t
  | none => if fromHere s from_ then failWrite n .kvFull s else sendAttn Owner.none from_ 4 (rejectBytes n .kvFull) s

/-- A request reaches this package: it is performed, or held while a rebalance of its sequence gathers (R350). -/
def meetReq (r : AttnReq) (s : State) : State :=
  if gathers s (reqSeq r) then s.withAttn { s.pkg.attn with heldq := s.pkg.attn.heldq ++ [r] }
  else match r with
    | .query q => performQuery q s
    | .append a => performAppend a s
    | .write e d from_ n => meetWrite e d from_ n s
    | .tierOut id u frame pa n => match seqOf s id, unitOf_ s id u with
      | some e, some x => pmtApplied n (if x.state = .valid && !x.tier1 then moveOut e x frame pa s else s)
      | _, _ => pmtApplied n s

/-- The first request that this package sent itself. -/
def nextOwn (s : State) : State :=
  match s.pkg.attn.queue with
  | [] => s
  | r :: l =>
    let ok : Bool := match r with | .query q => queryReady s q | .append _ | .write _ _ _ _ | .tierOut _ _ _ _ _ => true
    if ok then meetReq r (s.withAttn { s.pkg.attn with queue := l }) else s

/-- An event for a request: one that this package sent itself comes in its turn. -/
def arriveReq (here : Bool) (r : AttnReq) (s : State) : State :=
  if !here then meetReq r s
  else if s.pkg.attn.queue.head? = some r then nextOwn s else s

/-- QUERY_AT_HOLDER (R345). -/
def execQueryAtHolder (q : Query) (s : State) : Host.Outcome State Fault Refusal := event (arriveReq (fromHere s q.from_) (.query q) s)

/-- APPEND_AT_HOLDER (R344). -/
def execAppendAtHolder (r : Append) (s : State) : Host.Outcome State Fault Refusal := event (arriveReq (fromHere s r.from_) (.append r) s)

/-- PMT_WRITE_AT_MEMBER: a write of another member (R362). -/
def execPmtWriteAtMember (e : SeqEntry) (w : MemberWrite) (s : State) : Host.Outcome State Fault Refusal :=
  event (meetReq (.write e w.remove w.from_ w.n) s)

/-- A merged partial of the holder of a rank arrives: at this package's position of the tree, be its own query still to come, or,
from the root, at the requester (R347, R438). -/
def arrivePartial (qid : Nat) (from_ : BitVec 12) (rank : Nat) (r : HolderReply) (s : State) : State :=
  let a := s.pkg.attn
  match a.folds.find? (fun f => f.q.qid = qid && f.q.from_ = from_ && (childOf f rank).isSome) with
  | some f => joinFold f.q f ((childOf f rank).getD 0) r s
  | none =>
    if fromHere s from_ && a.asks.any (fun x => x.qid = qid && x.root = rank) then
      s.withAttn { a with asks := a.asks.map (fun x =>
        if x.qid = qid && x.got.isNone && !x.stale then { x with got := some r } else x) }
    else s.withAttn { a with early := a.early ++ [(qid, from_, rank, r)] }

def execPartialMerge (q : QueryTag) (rank : Nat) (r : HolderReply) (s : State) : Host.Outcome State Fault Refusal :=
  event (arrivePartial q.qid q.from_ rank r s)

/-- RESULT_RECORD_WRITE (R352). -/
def execResultRecordWrite (qid : Nat) (s : State) : Host.Outcome State Fault Refusal := event (onAsk qid finishAsk s)

/-- STALE_REPORT (R438). -/
def execStaleReport (qid : Nat) (s : State) : Host.Outcome State Fault Refusal := event (reportStale qid s)

/-- APPEND_COMPLETE: the other holders have performed an append of this package, or one has rejected it (R360); a write of
the table is rejected in the same way (R362). -/
def execAppendComplete (aid : Nat) (why : Option Cause) (s : State) : Host.Outcome State Fault Refusal :=
  event (match why with
    | none => settleAppend aid (onApp aid (fun a => { a with away := false }) s)
    | some c => failWrite aid c (failAppend aid c s))

/-! ## Records in AS (R436) -/

/-- A record of n bytes at an AS offset, as the slot's group reads it; MISALIGN and BOUNDS (R174, R352), and poison (R184). -/
def record (al off n : Nat) (s : State) : Res (List Byte) := do
  need (off % al = 0) .misalign
  match regionAt s.c.regions false off n with
  | none => trapWith .bounds
  | some r => do
    soundBuf false (span (r.phys false off) n) s
    .ok (getBytes s.core.as (r.phys false off) n)

/-- A completion offset: a multiple of 4 in an AS region (R357). -/
def wordAt (off : Nat) (s : State) : Res Unit := do
  need (off % 4 = 0) .misalign
  need (regionAt s.c.regions false off 4).isSome .bounds

/-- The number of the next request. -/
def nextReq (s : State) : Nat × State := (s.pkg.attn.next, s.withAttn { s.pkg.attn with next := s.pkg.attn.next + 1 })

/-- The member packages of a sequence (R339). -/
def seqMembers (s : State) (gid : BitVec 8) : List (BitVec 12) :=
  s.pkg.nodeid :: (match look s.pkg.groups gid.toNat with | some r => r.remote.map Prod.fst | none => [])

/-! ## at.q (R359) -/

/-- The fields of a query record are legal (R352). -/
def queryLegal (e : SeqEntry) (b : List Byte) : Bool :=
  let f := entNum b
  f 4 2 < e.nl && f 6 2 < e.nh && f 8 4 ≤ f 12 4 && f 20 2 ≤ 1024
    && ((f 22 1 = 1 && 1 ≤ f 24 2 && f 24 2 ≤ 64) || (f 22 1 = 0 && f 24 2 = 0)) && f 23 1 = 0 && f 26 38 = 0

/-- The query that a record gives. -/
def queryOf (s : State) (e : SeqEntry) (qid : Nat) (arr : Bool) (b : List Byte) : Query :=
  let f := entNum b
  { qid := qid, from_ := s.pkg.nodeid, seqid := e.seqid, layer := f 4 2, head := f 6 2, lo := f 8 4, hi := f 12 4
    scale := BitVec.ofNat 32 (f 16 4)
    units := if f 22 1 = 1 then some ((List.range (f 24 2)).map (fun i => f (64 + 4 * e.dh + 4 * i) 4)) else none
    q := (List.range e.dh).map (fun d => BitVec.ofNat 32 (f (64 + 4 * d) 4))
    arr := arr, gen := e.gen, holders := e.holders }

/-- The query goes to every holder in rank order (R349). -/
def sendQuery (q : Query) (e : SeqEntry) (s : State) : State :=
  e.holders.foldl (fun s n =>
    if fromHere s n then s.withAttn { s.pkg.attn with queue := s.pkg.attn.queue ++ [.query q] }
    else sendAttn (ownerOf s) n 0 (queryBytes q) s) s

def execAtQ (g : Fin 16) (arr rel acc : Bool) (a b : Src) (s : State) : Host.Outcome State Fault Refusal :=
  guarded g s (fun s => do
    let (x, y, t, s) ← srcSS a b s
    let hd ← record 256 x.toNat 64 s
    need (y.toNat % 256 = 0) .misalign
    match seqOf s (BitVec.ofNat 32 (entNum hd 0 4)) with
    | none => do
      need (regionAt s.c.regions false y.toNat 64).isSome .bounds
      trapWith .pmt
    | some e =>
      let len := 64 + 4 * e.dh + 4 * (if entNum hd 22 1 = 1 then entNum hd 24 2 else 0)
      let rec_ ← record 256 x.toNat len s
      let out := regionAt s.c.regions false y.toNat (accBytes e.dh + 8 * entNum hd 20 2)
      need out.isSome .bounds
      need (queryLegal e hd) .pmt
      engineReady (t || predTaint s.c (guardReg g)) s
      if rel && !mayRelease 3 s.c.gc (atStart s) then waitRoom
      else
        let (no, s) := nextEngine (emit s)
        let (qid, s) := nextReq s
        let q := queryOf s e qid arr rec_
        let ask : Ask :=
          { qid := qid, no := no, own := ownerOf s, recOff := x.toNat, resOff := y.toNat, dh := e.dh, maxMiss := entNum hd 20 2, acc := acc
            gen := e.gen, root := treeRoot e.holders.length - 1, got := none, since := s.pkg.devtime
            was := getBytes s.core.as ((out.map (fun r => r.phys true y.toNat)).getD 0) (accBytes e.dh), stale := false }
        .ok (sendQuery q e (s.withAttn { s.pkg.attn with asks := s.pkg.attn.asks ++ [ask] })))

/-! ## kv.app (R360) -/

def execKvApp (g : Fin 16) (cw rel : Bool) (a b : Src) (s : State) : Host.Outcome State Fault Refusal :=
  guarded g s (fun s => do
    let (x, y, t, s) ← if cw then srcSS a b s else (do let (x, t, s) ← srcS a s; .ok (x, 0, t, s))
    let hd ← record 256 x.toNat 64 s
    if cw then wordAt y.toNat s else .ok ()
    match seqOf s (BitVec.ofNat 32 (entNum hd 0 4)) with
    | none => trapWith .pmt
    | some e =>
      let pos := entNum hd 4 4
      let layer := entNum hd 8 2
      let nlay := entNum hd 10 2
      let n := nlay * e.nh * 2 * e.dh * seqEsz e
      need (layer + nlay ≤ e.nl) .pmt
      let rec_ ← record 256 x.toNat (64 + n) s
      need (posLegal e pos) .pmt
      let u := pos / unitTokens e
      need (e.tailu ≤ u) .kvPos
      engineReady (t || predTaint s.c (guardReg g)) s
      if rel && !mayRelease 3 s.c.gc (atStart s) then waitRoom
      else
        let (no, s) := nextEngine (emit s)
        let (aid, s) := nextReq s
        let (pri, mir) := holdersOf e u
        let app (p : Bool) : Append := ⟨aid, s.pkg.nodeid, e.seqid, pos, layer, nlay, e.gen, p, rec_.drop 64⟩
        let dests : List (BitVec 12 × Bool) := (pri, true) :: (match mir with | some m => [(m, false)] | none => [])
        let op : AppOp :=
          { aid := aid, no := no, own := ownerOf s, since := s.pkg.devtime, recOff := x.toNat, cw := if cw then some y.toNat else none
            here := dests.any (fun d => fromHere s d.1), away := dests.any (fun d => !fromHere s d.1) }
        let s := s.withAttn { s.pkg.attn with apps := s.pkg.attn.apps ++ [op] }
        .ok (dests.foldl (fun s d =>
          if fromHere s d.1 then s.withAttn { s.pkg.attn with queue := s.pkg.attn.queue ++ [.append (app d.2)] }
          else sendAttn (ownerOf s) d.1 5 (appendBytes (app d.2)) s) s))

/-! ## pm.rd (R340, R341, R361) -/

/-- The code of EFMT (R340). -/
def efmtCode : Fmt → Nat
  | .fp16 => 1 | .bf16 => 2 | _ => 3

/-- The image of a sequence entry as `pm.rd` shows it (R340). -/
def seqImage (e : SeqEntry) : List Byte :=
  bytesOf 4 e.seqid.toNat ++ bytesOf 2 e.gen.toNat ++ bytesOf 2 (1 + (if e.mir then 2 else 0)) ++ bytesOf 1 e.logt
    ++ bytesOf 1 (efmtCode e.efmt) ++ [e.group] ++ bytesOf 1 0 ++ bytesOf 2 e.nl ++ bytesOf 2 e.nh ++ bytesOf 2 e.dh
    ++ bytesOf 2 e.holders.length ++ bytesOf 4 e.tailu ++ nodeBytes e.tpri ++ nodeBytes e.tmir ++ List.replicate 36 0

/-- The code of a unit's state (R341). -/
def stateCode : UnitState → Nat
  | .valid => 1 | .mirror => 2 | .copying => 3 | .paging => 4

/-- The image of a unit entry (R341). -/
def unitImage (x : UnitEnt) : List Byte :=
  let hbm := !x.tier1 && x.state ≠ .copying
  let frame := if x.state = .copying then x.fresh else x.frame
  bytesOf 4 x.seqid.toNat ++ bytesOf 4 x.unit ++ bytesOf 8 frame ++ bytesOf 2 x.fill ++ bytesOf 1 (stateCode x.state)
    ++ bytesOf 1 (if x.tier1 then 1 else 0) ++ bytesOf 1 (if hbm || x.state = .copying then bitsOf frame 38 36 else 0) ++ bytesOf 1 0
    ++ bytesOf 2 x.pri.toNat ++ nodeBytes x.mir ++ bytesOf 2 x.gen.toNat ++ List.replicate 36 0

/-- The 64 bytes that `pm.rd` writes. -/
def pmImage (s : State) (d : W64) : List Byte :=
  let id := d.extractLsb' 0 32
  let ix := fieldOf d 63 34
  match fieldOf d 33 32 with
  | 0 => (match seqOf s id with | some e => seqImage e | none => List.replicate 64 0)
  | 1 => (match unitOf_ s id ix with | some x => unitImage x | none => List.replicate 64 0)
  | _ =>
    let l := match seqOf s id with | some e => e.holders | none => []
    (List.range 32).flatMap (fun i => nodeBytes l[32 * ix + i]?)

def execPmRd (g : Fin 16) (a b : Src) (s : State) : Host.Outcome State Fault Refusal :=
  guarded g s (fun s => do
    let (x, y, _, s) ← srcSS a b s
    need (y.toNat % 64 = 0) .misalign
    match regionAt s.c.regions false y.toNat 64 with
    | none => trapWith .bounds
    | some r => do
      need (fieldOf x 33 32 ≠ 3) .pmt
      .ok (sched (.buf false (cellsAt (r.phys true y.toNat) (pmImage s x))) 1 s))

/-! ## pm.wr (R362) -/

/-- The format of an EFMT code. -/
def efmtOf (n : Nat) : Option Fmt :=
  match n with | 1 => some .fp16 | 2 => some .bf16 | 3 => some .e4m3 | _ => none

/-- The sequence entry that an image with V = 1 gives, its holder list aside; none where a field is out of its range. -/
def seqOfImage (b : List Byte) : Option (SeqEntry × Nat × Nat) :=
  let f := entNum b
  match efmtOf (f 9 1) with
  | none => none
  | some fm =>
    let e : SeqEntry :=
      { seqid := BitVec.ofNat 32 (f 0 4), gen := BitVec.ofNat 16 (f 4 2), mir := (f 6 2).testBit 1, logt := f 8 1, efmt := fm
        group := b.getD 10 0, nl := f 12 2, nh := f 14 2, dh := f 16 2, tailu := 0, tpri := none, tmir := none, holders := [] }
    if f 0 4 ≠ 0 && f 6 2 / 4 = 0 && e.logt ≤ 12 && f 11 1 = 0 && 1 ≤ e.nl && e.nl ≤ 1024 && 1 ≤ e.nh && e.nh ≤ 256
        && (e.dh = 64 || e.dh = 128 || e.dh = 256) && 1 ≤ f 18 2 && f 18 2 ≤ 4096 && f 20 4 = 0 && f 24 2 = 0xFFFF
        && f 26 2 = 0xFFFF && f 28 4 = 0 && f 40 24 = 0 && rangeBytes e ≤ 2 ^ 34 then some (e, f 18 2, f 32 8)
    else none

/-- The bytes of the holder list under the context's translation. -/
def listBytes (va : W64) : Nat → State → Res (List Byte × State)
  | 0, s => .ok ([], s)
  | n + 1, s => do
    let (pa, s) ← paOf 0 .read va s
    let (l, s) ← listBytes (va + 1) n s
    .ok (getByte s.pkg.mem pa :: l, s)

/-- No node stands twice. -/
def distinct : List Nat → Bool
  | [] => true
  | x :: r => !r.contains x && distinct r

/-- A prefix entry that is held names the sequence, or covers one of some positions of it (R354, R362). -/
def prefixHolds (s : State) (id : W32) (lo hi : Nat) : Bool :=
  s.pkg.attn.px.any (fun p => p.2.seqid = id && 0 < p.2.ref && 16 * p.2.depth < hi && lo < 16 * p.2.depth + 16)

/-- The requests that this package sent itself are performed, as far as they can be. -/
def drainOwn : Nat → State → State
  | 0, s => s
  | n + 1, s => drainOwn n (nextOwn s)

/-- A write of the table or a rebalance follows the requests that this package sent itself (R349, R437), and waits for a rebalance
of the sequence that gathered before its group. The flag says that one of its own group gathers, which holds it (R350). -/
def attnIdle (id : W32) (s : State) : Res (Bool × State) :=
  let t := drainOwn s.pkg.attn.queue.length s
  if !t.pkg.attn.queue.isEmpty || gathers (atStart s) id then waitRoom else .ok (gathers t id, t)

/-- A sequence write is applied here, or held with a rebalance, and sent to the other members, for whose acknowledgements the
context waits. -/
def spreadWrite (e : SeqEntry) (remove held : Bool) (off : Nat) (img : List Byte) (s : State) : Res State :=
  match if held then some s else performWrite e remove s with
  | none => trapWith .kvFull
  | some s =>
    let others := ((seqMembers s e.group).filter (fun n => !fromHere s n)).eraseDups
    let (n, s) := nextReq (emit s)
    let data := writeBytes n e remove img
    let last (s : State) (d : BitVec 12) : W32 := (pathTo s.pkg.fab d).next + BitVec.ofNat 32 ((data.length + 255) / 256) - 1
    let path := others.map (fun d => (d, last s d))
    let s := others.foldl (fun s d => sendAttn (ownerOf s) d 6 data s) s
    let s := s.withAttn { s.pkg.attn with
      pmts := s.pkg.attn.pmts ++ [⟨n, ownerOf s, off, s.pkg.devtime, path, held⟩]
      heldq := if held then s.pkg.attn.heldq ++ [.write e remove s.pkg.nodeid n] else s.pkg.attn.heldq }
    .ok (waitFor (.pmt n) s)

/-- A sequence image is written. -/
def writeSeq (off : Nat) (b : List Byte) (s : State) : Res State := do
  let id := BitVec.ofNat 32 (entNum b 0 4)
  let (held, s) ← attnIdle id s
  if (entNum b 6 2).testBit 0 then
    match seqOfImage b with
    | none => trapWith .pmt
    | some (e, n, va) => do
      need (seqOf s id).isNone .pmt
      need (va / 2 ^ 48 = 0) .pmt
      let (l, s) ← listBytes (BitVec.ofNat 64 va) (2 * n) s
      let nodes := piecesOf 2 l
      need (distinct nodes && nodes.all (fun x => (seqMembers s e.group).any (fun m => m.toNat = x))) .pmt
      need ((s.pkg.attn.seqs.map (fun x => x.2.holders.length)).sum + n ≤ 65536) .pmt
      spreadWrite { e with holders := nodes.map (BitVec.ofNat 12) } false held off b s
  else
    match seqOf s id with
    | none => trapWith .pmt
    | some e => do
      need (!prefixHolds s id 0 (2 ^ 64)) .pmt
      spreadWrite e true held off b s

/-- A unit image moves its unit to the pool tier, or does so once the rebalance that holds it is over. -/
def writeUnit (recOff : Nat) (b : List Byte) (s : State) : Res State := do
  let id := BitVec.ofNat 32 (entNum b 0 4)
  let u := entNum b 4 4
  let va := BitVec.ofNat 64 (entNum b 8 8)
  let (held, s) ← attnIdle id s
  match seqOf s id, unitOf_ s id u with
  | some e, some x => do
    let t := unitTokens e
    need (x.state = .valid && !x.tier1 && entNum b 0x13 1 = 1) .pmt
    need (spaceOf va = 2 && nodeOf va = 0) .pmt
    need (!prefixHolds s id (u * t) (u * t + t)) .pmt
    let (pte, log, s) ← translate 2 .read va s
    need (permits .read s.c.id.sup pte) .access
    let off := va.toNat % 2 ^ 48
    need (off % 2 ^ log + rangeBytes e ≤ 2 ^ log) .pmt
    let pa := leafPa pte log off
    if !held then .ok (moveOut e x va.toNat pa (emit s))
    else
      let (n, s) := nextReq (emit s)
      let s := s.withAttn { s.pkg.attn with
        pmts := s.pkg.attn.pmts ++ [⟨n, ownerOf s, recOff, s.pkg.devtime, [], true⟩]
        heldq := s.pkg.attn.heldq ++ [.tierOut id u va.toNat pa n] }
      .ok (waitFor (.pmt n) s)
  | _, _ => trapWith .pmt

/-- `pm.wr.seq` and `pm.wr.unit` (R362). -/
def pmWrite (f : Nat → List Byte → State → Res State) (g : Fin 16) (a : Src) (s : State) : Host.Outcome State Fault Refusal :=
  guarded g s (fun s => do
    let (x, _, s) ← srcS a s
    let b ← record 64 x.toNat 64 s
    f x.toNat b s)

def execPmWrSeq (g : Fin 16) (a : Src) (s : State) : Host.Outcome State Fault Refusal := pmWrite writeSeq g a s
def execPmWrUnit (g : Fin 16) (a : Src) (s : State) : Host.Outcome State Fault Refusal := pmWrite writeUnit g a s

/-- Every member has applied a write: its packets are acknowledged, and this package holds it no longer (R362). -/
def pmtDone (s : State) (n : Nat) : Bool :=
  match s.pkg.attn.pmts.find? (fun p => p.n = n) with
  | some p => !p.here && !p.path.any (unacked s)
  | none => true

/-! ## Rebalancing (R350, R363) -/

/-- A unit's entry under a new generation (R350 steps 2 to 4); none where the unit is gone. -/
def rebalUnit (me : BitVec 12) (r : RebalStep) (e : SeqEntry) (x : UnitEnt) : Option UnitEnt :=
  let l := e.holders
  let h := l.length
  let next (i : Nat) : Option (BitVec 12) := if e.mir && 2 ≤ h then l[(i + 1) % h]? else none
  let mine := next ((findIdx (fun n => n = me) l).getD 0)
  match x.state with
  | .mirror => if x.pri = r.lost then some { x with state := .valid, pri := me, mir := mine, gen := e.gen } else some x
  | .copying => if x.pri = r.lost then none else some x
  | .valid | .paging => if x.mir = some r.lost then some { x with mir := mine, gen := e.gen } else some x

/-- A unit of which a primary names this package the new mirror (R344); the flag says that no range or entry could be had
(R343). -/
def adoptMirror (e : SeqEntry) (x : State × Bool) (m : NewMirror) : State × Bool :=
  let (s, full) := x
  if (unitOf_ s e.seqid m.unit).isSome then (s, full)
  else if !unitRoom s then (s, true)
  else if m.tier1 then
    (setUnit ⟨e.seqid, m.unit, m.frame, m.poolPa, m.fill, .mirror, true, m.pri, some s.pkg.nodeid, e.gen, 0, []⟩ s, full)
  else match allocRange e m.unit s with
    | none => (s, true)
    | some (pa, s) => (setUnit ⟨e.seqid, m.unit, 0, 0, m.fill, .copying, false, m.pri, some s.pkg.nodeid, e.gen, pa, []⟩ s, full)

/-- A primary sends the unit to its new mirror, which its SEQID and number name, with PRI and FILL; of one in the pool tier it
sends the place (R344). -/
def fillMirror (e : SeqEntry) (x y : UnitEnt) (s : State) : State :=
  match y.mir with
  | none => s
  | some n =>
    if y.mir = x.mir || (y.state ≠ .valid && y.state ≠ .paging) then s
    else
      let head := bytesOf 4 y.seqid.toNat ++ bytesOf 4 y.unit ++ bytesOf 2 y.pri.toNat ++ bytesOf 2 y.fill
      if y.tier1 then sendAttn Owner.none n 9 (head ++ bytesOf 8 y.frame ++ bytesOf 8 y.poolPa) s
      else sendAttn Owner.none n 8 (head ++ getBytes s.pkg.mem y.frame (unitBytes e)) s

/-- A unit meets the step. -/
def stepUnit (r : RebalStep) (old e : SeqEntry) (s : State) (x : UnitEnt) : State :=
  match rebalUnit s.pkg.nodeid r e x with
  | some y => fillMirror e x y (setUnit y s)
  | none => rejectHeld x.held (absentUnit old x s)

/-- What was held for a sequence is performed (R350). -/
def releaseReqs (id : W32) (s : State) : State :=
  let l := s.pkg.attn.heldq.filter (fun q => reqSeq q = id)
  let s := s.withAttn { s.pkg.attn with heldq := s.pkg.attn.heldq.filter (fun q => reqSeq q ≠ id) }
  l.foldl (fun s q => meetReq q s) s

/-- No issuer's rebalance gathers here any longer (R350). -/
def endGather (id : W32) (s : State) : State :=
  releaseReqs id (s.withAttn { s.pkg.attn with gathering := s.pkg.attn.gathering.filter (fun x => x.1 ≠ id) })

/-- One issuer's rebalance does not: what is held goes on once none gathers. -/
def ungather (id : W32) (node : BitVec 12) (s : State) : State :=
  let s := s.withAttn { s.pkg.attn with gathering := s.pkg.attn.gathering.filter (fun x => x ≠ (id, node)) }
  if gathers s id then s else releaseReqs id s

/-- The step at this member, provided that its generation is the expected one (R350): none where it is not; the flag says that
a new mirror found no range (R343). -/
def applyStep (r : RebalStep) (s : State) : Option (State × Bool) :=
  match (seqOf s r.seqid).filter (fun e => e.gen = r.gen) with
  | none => none
  | some e =>
    let e' := { e with
      gen := e.gen + 1
      holders := e.holders.filter (fun n => n ≠ r.lost)
      tailu := (r.tail.map (·.1)).getD 0
      tpri := r.tail.bind (·.2.1)
      tmir := r.tail.bind (·.2.2) }
    let s := (unitsOf s r.seqid).foldl (stepUnit r e e') (setSeq e' s)
    let (s, full) := r.named.foldl (adoptMirror e') (s, false)
    some (endGather r.seqid s, full)

/-- A rebalance of this package is over (R363): the completion word, or the late trap; a failed one lets the members go on. -/
def finishRebal (o : RebalOp) (why : Option Cause) (s : State) : State :=
  let s := s.withAttn { s.pkg.attn with rebals := s.pkg.attn.rebals.filter (fun x => x ≠ o) }
  match why with
  | none => (match o.cw with
    | some off => landWord o.own (some (false, off, (o.gen + 1).zeroExtend 32)) s
    | none => s)
  | some c =>
    let s := o.others.foldl (fun s n => sendAttn o.own n 12 (askBytes (.drop o.seqid s.pkg.nodeid)) s) s
    ungather o.seqid s.pkg.nodeid (attnFails o.own c 0 s)

/-- This package's rebalance of a sequence. -/
def rebalOf (s : State) (id : W32) : Option RebalOp := s.pkg.attn.rebals.find? (fun o => o.seqid = id)

/-- A rebalance's record changed. -/
def setRebal (o : RebalOp) (s : State) : State :=
  s.withAttn { s.pkg.attn with rebals := s.pkg.attn.rebals.map (fun x => if x.n = o.n then o else x) }

/-- The highest unit of which this package holds an entry, with its PRI and MIR; a copy that has not landed is no mirror that
can be promoted (R350). -/
def ownBest (s : State) (id : W32) (lost : BitVec 12) : Option (Nat × BitVec 12 × Option (BitVec 12)) :=
  ((unitsOf s id).getLast?).map (fun x => (x.unit, x.pri, if x.state = .copying && x.pri = lost then none else x.mir))

/-- U and its holders after steps 2 and 3 (R350). -/
def tailOf (e : SeqEntry) (lost : BitVec 12) (best : Option (Nat × BitVec 12 × Option (BitVec 12))) :
    Option (Nat × Option (BitVec 12) × Option (BitVec 12)) :=
  let l := e.holders.filter (fun n => n ≠ lost)
  let next (n : BitVec 12) : Option (BitVec 12) :=
    if e.mir && 2 ≤ l.length then l[((findIdx (fun m => m = n) l).getD 0 + 1) % l.length]? else none
  best.map (fun b =>
    let (u, pri, mir) := b
    if pri = lost then (match mir with
      | some m => (u, some m, next m)
      | none => (u, none, none))
    else if mir = some lost then (u, some pri, next pri)
    else (u, some pri, mir))

/-- The step of a rebalance of this package. -/
def ownStep (o : RebalOp) (e : SeqEntry) (named : List NewMirror) (s : State) : RebalStep :=
  ⟨s.pkg.nodeid, o.seqid, o.lost, o.gen, tailOf e o.lost o.best, named⟩

/-- With every member's answer there, the step goes to every other member (R350). -/
def sendStep (o : RebalOp) (s : State) : State :=
  if o.sent || !o.left.isEmpty then s
  else match seqOf s o.seqid with
    | none => finishRebal o (some .staleGeneration) s
    | some e =>
      let path := o.others.map (fun n => (n, (pathTo s.pkg.fab n).next))
      let s := o.others.foldl (fun s n => sendAttn o.own n 11 (stepBytes (ownStep o e [] s)) s) s
      setRebal { o with sent := true, path := path, since := s.pkg.devtime } s

/-- This package applies its own step, the last of the members (R363); a failure ends the rebalance. -/
def applyOwn (o : RebalOp) (named : List NewMirror) (s : State) : State :=
  if !o.sent || o.path.any (unacked s) then s
  else match (seqOf s o.seqid).bind (fun e => applyStep (ownStep o e named s) s) with
    | none => finishRebal o (some .staleGeneration) s
    | some (s, true) => finishRebal o (some .kvFull) s
    | some (s, false) => s

/-- Another member's step; a wrong generation answers STALE, a mirror without a range KV_FULL. -/
def applyOther (r : RebalStep) (s : State) : State :=
  match applyStep r s with
  | none => sendAttn Owner.none r.from_ 12 (askBytes (.stale r.seqid s.pkg.nodeid)) s
  | some (s, full) => if full then sendAttn Owner.none r.from_ 4 (rejectBytes r.seqid.toNat .kvFull) s else s

/-- REBALANCE_APPLY (R350, R363): the step at a member, or this package's own, after every other member's. -/
def execRebalanceApply (r : RebalStep) (s : State) : Host.Outcome State Fault Refusal :=
  event (if !fromHere s r.from_ then applyOther r s
    else match rebalOf s r.seqid with
      | some o => applyOwn o r.named s
      | none => s)

/-- A member is asked (R350): it answers with its highest unit and holds what reaches it from then on. Under another
generation it answers STALE. Where it rebalances the sequence itself, the issuer of the lower node id goes on unless a step has
been sent, and the other fails with STALE_GENERATION (log 52). -/
def askedBy (id : W32) (gen : W16) (from_ lost : BitVec 12) (s : State) : State :=
  let stale (s : State) : State := sendAttn Owner.none from_ 12 (askBytes (.stale id s.pkg.nodeid)) s
  let answer (s : State) : State :=
    let s := s.withAttn { s.pkg.attn with gathering := (s.pkg.attn.gathering.filter (fun x => x ≠ (id, from_))) ++ [(id, from_)] }
    sendAttn Owner.none from_ 10 (askBytes (.answer id s.pkg.nodeid (ownBest s id lost))) s
  if !(seqOf s id).any (fun e => e.gen = gen) then stale s
  else match rebalOf s id with
    | none => answer s
    | some o =>
      if o.sent || s.pkg.nodeid.ult from_ then stale s
      else answer (finishRebal o (some .staleGeneration) s)

/-- A member's answer reaches the issuer (R350). -/
def answered (id : W32) (from_ : BitVec 12) (b : Option (Nat × BitVec 12 × Option (BitVec 12))) (s : State) : State :=
  match rebalOf s id with
  | none => s
  | some o =>
    if !o.left.contains from_ then s
    else
      let above : Bool := match b, o.best with
        | some x, some y => y.1 < x.1
        | some _, none => true
        | none, _ => false
      let o := { o with left := o.left.filter (fun n => n ≠ from_), best := if above then b else o.best }
      sendStep o (setRebal o s)

/-- REBALANCE_QUERY (R350): what the packages of a rebalance tell each other before its step. -/
def meetAsk (q : RebalAsk) (s : State) : State :=
  match q with
  | .ask id gen from_ lost => askedBy id gen from_ lost s
  | .answer id from_ b => answered id from_ b s
  | .stale id from_ => (match rebalOf s id with
    | some o => if o.others.contains from_ then finishRebal o (some .staleGeneration) s else s
    | none => s)
  | .drop id from_ => ungather id from_ s

def execRebalanceQuery (q : RebalAsk) (s : State) : Host.Outcome State Fault Refusal := event (meetAsk q s)

/-- This package has applied its own step. -/
def rebalApplied (s : State) (o : RebalOp) : Bool := (seqOf s o.seqid).any (fun e => e.gen = o.gen + 1)

/-- REBALANCE_COMPLETE (R363). -/
def execRebalanceComplete (seqid : W32) (why : Option Cause) (s : State) : Host.Outcome State Fault Refusal :=
  event (match rebalOf s seqid with
    | none => s
    | some o => if why.isNone && !(o.sent && rebalApplied s o) then s else finishRebal o why s)

/-- A rebalance with no other surviving member goes through by itself. -/
def rebalAlone (o : RebalOp) (s : State) : State :=
  if !o.others.isEmpty then s
  else if o.sent && rebalApplied s o then finishRebal o none s
  else applyOwn o [] s

/-- ATTENTION_TIMEOUT: FABTMO has passed without an answer (R349, R362, R363, R438). -/
def attnTimesOut (n : Nat) (s : State) : State :=
  let late (t : W64) : Bool := tmoNs s.pkg.fab ≤ age s t
  let s := onAsk n (fun a s =>
    if a.got.isSome || a.stale then finishAsk a s else if late a.since then completeAsk a false true s else s) s
  let s := if s.pkg.attn.apps.any (fun a => a.aid = n && late a.since) then failAppend n .nodeUnreachable s else s
  let s := if s.pkg.attn.pmts.any (fun p => p.n = n && late p.since && p.path.any (unacked s)) then failWrite n .nodeUnreachable s else s
  match s.pkg.attn.rebals.find? (fun o => o.n = n && late o.since && (!o.left.isEmpty || o.path.any (unacked s))) with
  | some o => finishRebal o (some .nodeUnreachable) s
  | none => s

def execAttentionTimeout (qid : Nat) (s : State) : Host.Outcome State Fault Refusal := event (attnTimesOut qid s)

def execPmRebal (g : Fin 16) (cw : Bool) (a b : Src) (s : State) : Host.Outcome State Fault Refusal :=
  guarded g s (fun s => do
    let (x, y, t, s) ← srcSS a b s
    let id := x.extractLsb' 0 32
    let gen := x.extractLsb' 32 16
    let lost := y.extractLsb' 0 12
    let off := fieldOf y 37 16
    if cw then wordAt off s else .ok ()
    match seqOf s id with
    | none => trapWith .pmt
    | some e => do
      need (e.holders.contains lost && e.holders.length ≠ 1) .pmt
      need (e.gen = gen) .staleGeneration
      engineReady (t || predTaint s.c (guardReg g)) s
      let (held, s) ← attnIdle id s
      if held then .ok (attnFails (ownerOf s) .staleGeneration 0 (emit s)) else
      let (no, s) := nextEngine (emit s)
      let (n, s) := nextReq s
      let others := ((seqMembers s e.group).filter (fun n => !fromHere s n && n ≠ lost)).eraseDups
      let op : RebalOp :=
        { n := n, own := ownerOf s, no := no, seqid := id, lost := lost, gen := gen, cw := if cw then some off else none
          others := others, left := others, best := ownBest s id lost, sent := false, path := [], since := s.pkg.devtime }
      let s := others.foldl (fun s m => sendAttn (ownerOf s) m 7 (askBytes (.ask id gen s.pkg.nodeid lost)) s) s
      .ok (sendStep op (s.withAttn { s.pkg.attn with
        rebals := s.pkg.attn.rebals ++ [op], gathering := s.pkg.attn.gathering ++ [(id, s.pkg.nodeid)] })))

/-- UNIT_COPY_COMPLETE: the unit's bytes have come from its primary, and the held appends land (R344). -/
def copyLands (id : W32) (u : Nat) (data : List Byte) (s : State) : State :=
  match seqOf s id, unitOf_ s id u with
  | some e, some x =>
    if x.state ≠ .copying then s
    else
      let s := writeMem (cellsAt x.fresh (data.take (rangeBytes e))) s
      releaseHeld x.held (setUnit { x with state := .mirror, frame := x.fresh, fresh := 0, held := [], gen := e.gen } s)
  | _, _ => s

def execUnitCopyComplete (seqid : W32) (unit : Nat) (data : List Byte) (s : State) : Host.Outcome State Fault Refusal :=
  event (copyLands seqid unit data s)

/-! ## The pool tier (R351, R368) -/

def execTierIn (g : Fin 16) (e : Fin 2) (cw : Bool) (a b : Src) (s : State) : Host.Outcome State Fault Refusal :=
  guarded g s (fun s => do
    let (x, y, t, s) ← if cw then srcSS a b s else (do let (x, t, s) ← srcS a s; .ok (x, 0, t, s))
    let id := x.extractLsb' 0 32
    let u := fieldOf x 63 32
    if cw then wordAt y.toNat s else .ok ()
    match seqOf s id, unitOf_ s id u with
    | some q, some n => do
      need (n.state = .valid && n.tier1) .pmt
      match allocRange q u s with
      | none => trapWith .kvFull
      | some (pa, s1) => do
        engineReady (t || predTaint s.c (guardReg g)) s
        if 16 ≤ engineLoad s e then waitRoom
        else
          let (no, s) := nextEngine (emit s1)
          let op : TierOp := ⟨ownerOf s, no, e, ctlPri s.c.a.shadow[e], id, u, if cw then some y.toNat else none, pa⟩
          let s := setUnit { n with state := .paging, fresh := pa, gen := q.gen } s
          .ok (s.withAttn { s.pkg.attn with tiers := s.pkg.attn.tiers ++ [op] })
    | _, _ => trapWith .pmt)

/-- The bytes of one range copied to another as cells: every listed byte of either. -/
def moveCells (m : Cells) (src dst n : Nat) : Cells :=
  (cellsIn m dst n).map (fun c => (c.1, 0)) ++ (cellsIn m src n).map (fun c => (c.1 - src + dst, c.2))

/-- An engine has served a page-in of a context and class (R217). -/
def noteServed (t : TierOp) (s : State) : State :=
  s.withCore { s.core with served := put s.core.served (4 * t.e.val + t.pri) t.own.ctxid }

/-- A unit whose page-in is gone returns to the pool tier (R344). -/
def revertUnit (s : State) (x : UnitEnt) : State :=
  match seqOf s x.seqid with
  | none => s
  | some q => rejectHeld x.held (freeRange q x.fresh (setUnit { x with state := .valid, fresh := 0, held := [], gen := q.gen } s))

/-- Units whose page-in has been cancelled. -/
def sweepTiers (s : State) : State :=
  (s.pkg.attn.units.filter (fun x => x.state = .paging
    && !s.pkg.attn.tiers.any (fun t => t.seqid = x.seqid && t.unit = x.unit && t.fresh = x.fresh))).foldl revertUnit s

/-- A page-in stops (R221, R344, R358): it and the later ones of its context, engine and class are cancelled; poison is consumed
while the issuing phase is open, and is otherwise a trap like the other conditions. -/
def stopTier (t : TierOp) (why : XferFault) (s : State) : State :=
  let s := sweepTiers (noteServed t (cancelClass t.own t.e t.pri t.no false (xferCause why) s))
  let sameOpen : Bool := (ownedBy t.own s.c && openPhase t.own s) || (ownedBy t.own s.c2 && s.c2.phseq = t.own.phseq)
  if why = .poison && sameOpen then
    onOwner t.own (consumeLate 0) s
  else attnFails t.own (xferCause why) 0 s

/-- TIER_IN_COMPLETE (R344, R368): the unit is in HBM, the held appends are applied, the completion word counts. A page-in whose
unit has been removed since moves nothing. -/
def tierLands (e : Fin 2) (s : State) : State :=
  match nextTier s e with
  | none => s
  | some t =>
    let done := noteServed t (dropTiers (fun u => u = t) s)
    match seqOf s t.seqid, unitOf_ s t.seqid t.unit with
    | some q, some x =>
      if !(x.state = .paging && x.fresh = t.fresh) then done
      else if severed s.pkg x.poolPa then stopTier t .poolRegion s
      else
      let s := writeMem (moveCells s.pkg.mem x.poolPa x.fresh (rangeBytes q)) done
      let s := releaseHeld x.held (setUnit { x with state := .valid, tier1 := false, frame := x.fresh, fresh := 0, held := [], gen := q.gen } s)
      let s := countDone t.own e s
      (match t.cw with | some off => addWord t.own off s | none => s)
    | _, _ => done

def execTierInComplete (e : Fin 2) (s : State) : Host.Outcome State Fault Refusal := event (tierLands e s)

/-- TIER_IN_FAIL. -/
def execTierInFail (e : Fin 2) (why : XferFault) (s : State) : Host.Outcome State Fault Refusal :=
  event (match nextTier s e with
    | some t => stopTier t why s
    | none => s)

/-! ## What goes on by itself -/

/-- The package's own attention work: its requests to itself in order, results that have come, page-ins, rebalances that
concern it alone. -/
def attnProgress (s : State) : State :=
  let s := sweepTiers (nextOwn s)
  let s := (s.pkg.attn.asks.filter (fun a => a.got.isSome || a.stale)).foldl (fun s a => onAsk a.qid finishAsk s) s
  let s := tierLands 1 (tierLands 0 s)
  (s.pkg.attn.rebals).foldl (fun s o => rebalAlone o s) s

/-! ## The prefix table (R354 to R356, R364 to R367) -/

/-- The chained hash of a block (R355). -/
def hashBlock (x : W64) (t : List W32) : W64 :=
  let lo := loW x
  let hi := hiW x
  let lo' := lo * 65537 + (t.mapIdx (fun j v => BitVec.ofNat 32 (j + 1) * v)).foldl (· + ·) 0
  let hi' := (hi.rotateLeft 7 ^^^ lo') + t.foldl (· + ·) 0
  hi' ++ lo'

/-- `px.hash` (R364). -/
def execPxHash (g : Fin 16) (d : Reg) (b : Src) (s : State) : Host.Outcome State Fault Refusal :=
  guarded g s (fun s => do
    let (y, u, s) ← srcS b s
    let (x, t) ← srcReg d s
    let l ← record 64 y.toNat 64 s
    writeReg d (hashBlock x ((piecesOf 4 l).map (BitVec.ofNat 32))) (t || u || predTaint s.c (guardReg g)) 4 s)

/-- The hash list at an offset (R356); PMT for a length outside 1 to 64. -/
def hashList (off : Nat) (s : State) : Res (List Nat) := do
  let hd ← record 8 off 8 s
  let n := entNum hd 0 4
  need (1 ≤ n && n ≤ 64) .pmt
  let l ← record 8 off (8 + 8 * n) s
  .ok (piecesOf 8 (l.drop 8))

/-- The entry with a key and depth, with its index. -/
def pxFind (t : Table PxEnt) (key : Nat) (depth : Nat) : Option (Nat × PxEnt) :=
  t.find? (fun e => e.2.key.toNat = key && e.2.depth = depth)

/-- The entries of the match of a list from depth j on (R356); `full` says that an entry stops it. -/
def matchFrom (t : Table PxEnt) (full : PxEnt → Bool) (id : Option W32) (j : Nat) : List Nat → List (Nat × PxEnt)
  | [] => []
  | h :: r =>
    match pxFind t h j with
    | none => []
    | some e =>
      if (id.any (fun x => x ≠ e.2.seqid)) || full e.2 then []
      else e :: matchFrom t full (some (id.getD e.2.seqid)) (j + 1) r

/-- The match value (R356). -/
def matchValue (l : List (Nat × PxEnt)) : W64 :=
  match l with
  | [] => 0
  | e :: _ => BitVec.ofNat 64 (e.2.seqid.toNat * 2 ^ 32 + l.length)

/-- An entry is touched: its stamp is the next counter value (R354). -/
def touch (s : State) (i : Nat) (e : PxEnt) : State :=
  let a := s.pkg.attn
  s.withAttn { a with px := put a.px i { e with stamp := a.stamp + 1 }, stamp := a.stamp + 1 }

/-- `px.look` and `px.pin` (R365). -/
def lookup (pin : Bool) (g : Fin 16) (d : Reg) (b : Src) (s : State) : Host.Outcome State Fault Refusal :=
  guarded g s (fun s => do
    let (y, t, s) ← srcS b s
    let l ← hashList y.toNat s
    let m := matchFrom s.pkg.attn.px (fun e => pin && e.ref = 65535) none 0 l
    let s := m.foldl (fun s e => touch s e.1 { e.2 with ref := if pin then e.2.ref + 1 else e.2.ref }) (emit s)
    writeReg d (matchValue m) (t || predTaint s.c (guardReg g)) 1 s)

def execPxLook (g : Fin 16) (d : Reg) (b : Src) (s : State) : Host.Outcome State Fault Refusal := lookup false g d b s
def execPxPin (g : Fin 16) (d : Reg) (b : Src) (s : State) : Host.Outcome State Fault Refusal := lookup true g d b s

/-- `px.unpin` (R366). -/
def execPxUnpin (g : Fin 16) (a b : Src) (s : State) : Host.Outcome State Fault Refusal :=
  guarded g s (fun s => do
    let (x, y, _, s) ← srcSS a b s
    need (y.toNat ≤ 64) .pmt
    let l ← hashList x.toNat s
    let m := (matchFrom s.pkg.attn.px (fun _ => false) none 0 l).take y.toNat
    let px := m.foldl (fun t e => put t e.1 { e.2 with ref := e.2.ref - 1 }) s.pkg.attn.px
    .ok (emit (s.withAttn { s.pkg.attn with px := px })))

/-- The entry that an insert takes: the lowest one with V = 0, else the one with REF = 0 and the least stamp (R367). -/
def pxVictim (t : Table PxEnt) : Option Nat :=
  match (List.range 64).find? (fun i => (look t i).isNone) with
  | some i => some i
  | none => ((t.filter (fun e => e.2.ref = 0)).foldl (fun (b : Option (Nat × PxEnt)) e => match b with
      | none => some e
      | some c => if e.2.stamp < c.2.stamp then some e else some c) none).map Prod.fst

/-- `px.ins` (R367). -/
def execPxIns (g : Fin 16) (d : Reg) (b : Src) (s : State) : Host.Outcome State Fault Refusal :=
  guarded g s (fun s => do
    let (y, t, s) ← srcS b s
    let r ← record 16 y.toNat 16 s
    let key := entNum r 0 8
    let id := BitVec.ofNat 32 (entNum r 8 4)
    let depth := entNum r 12 2
    need (seqOf s id).isSome .pmt
    let s := emit s
    let (v, s) := match pxFind s.pkg.attn.px key depth with
      | some (i, e) => (BitVec.ofNat 64 i, touch s i e)
      | none => match pxVictim s.pkg.attn.px with
        | some i => (BitVec.ofNat 64 (i + 256), touch s i ⟨BitVec.ofNat 64 key, depth, id, 0, 0⟩)
        | none => (BitVec.allOnes 64, s)
    writeReg d v (t || predTaint s.c (guardReg g)) 1 s)

/-! ## vsmrg (R369) -/

/-- The register i places after another. -/
def regPlus (r : Reg) (i : Nat) : Reg := Fin.ofNat 32 (r.val + i)

/-- The words of k vector registers, as a partial. -/
def groupPartial (l : List VWord) : Partial := partialOf (l.flatMap (fun v => (List.range 64).map (lane v)))

/-- The registers of a group with their taint. -/
def readGroup (r : Reg) : Nat → State → Res (List VWord × Bool)
  | 0, _ => .ok ([], false)
  | n + 1, s => do
    let (x, t) ← srcVReg r s
    let (l, u) ← readGroup (regPlus r 1) n s
    .ok (x :: l, t || u)

/-- The registers of a group are written, word after word. -/
def writeGroup (r : Reg) (w : List W32) (t : Bool) : Nat → State → Res State
  | 0, s => .ok s
  | n + 1, s => do
    let s ← writeV (.reg r) (ofLanes (fun i => w.getD i 0)) t 10 s
    writeGroup (regPlus r 1) (w.drop 64) t n s

def execVsmrg (d a : Reg) (k : Fin 8) (s : State) : Host.Outcome State Fault Refusal :=
  always s (fun s => do
    let (x, t) ← readGroup d k.val s
    let (y, u) ← readGroup a k.val s
    writeGroup d (partialWords (mergePartial (groupPartial x) (groupPartial y))) (t || u) k.val s)

end Sys2Proof.Machine
end

