-- ==== Sys2Proof/Machine/Scalar.lean ====
section
/-! DEFINITION. The scalar instructions (R104 to R109): one meaning per opcode over the shared shape of an
S3 slot (R67). -/

namespace Sys2Proof.Machine

/-- An S slot with two operands under its guard: x = f a b, due after l groups (R67, R104); the result
carries the taint of the operands and of the guard (R95). -/
def alu2 (f : W64 → W64 → W64) (l : Nat) (g : Fin 16) (d : Dst) (a b : Src) (s : State) : Res State := do
  let (x, y, t, s) ← srcSS a b s
  writeS d (f x y) (t || predTaint s.c (guardReg g)) l s

/-- An S slot with one operand under its guard. -/
def alu1 (f : W64 → W64) (l : Nat) (g : Fin 16) (d : Dst) (a : Src) (s : State) : Res State := do
  let (x, t, s) ← srcS a s
  writeS d (f x) (t || predTaint s.c (guardReg g)) l s

/-! ## The operations -/

/-- Bits [127:64] of the exact signed product (R104). -/
def mulHigh (a b : W64) : W64 := BitVec.ofInt 64 (a.toInt * b.toInt / (2 ^ 64 : Nat))

/-- Bits [127:64] of the exact unsigned product (R104). -/
def mulHighU (a b : W64) : W64 := BitVec.ofNat 64 (a.toNat * b.toNat / 2 ^ 64)

/-- The signed quotient toward zero and its remainder, with the edge cases of R104. -/
def quotS (a b : W64) : W64 := if b = 0 then BitVec.allOnes 64 else BitVec.ofInt 64 (a.toInt.tdiv b.toInt)
def remS (a b : W64) : W64 := if b = 0 then a else BitVec.ofInt 64 (a.toInt.tmod b.toInt)

/-- The unsigned quotient and remainder, with the edge cases of R104. -/
def quotU (a b : W64) : W64 := if b = 0 then BitVec.allOnes 64 else BitVec.ofNat 64 (a.toNat / b.toNat)
def remU (a b : W64) : W64 := if b = 0 then a else BitVec.ofNat 64 (a.toNat % b.toNat)

/-- A shift amount: bits [5:0] (R104). -/
def shamt (b : W64) : Nat := b.toNat % 64

/-- The signed sum clamped to 64 bits (R104). -/
def addSat (a b : W64) : W64 :=
  BitVec.ofInt 64 (max (-(2 ^ 63 : Nat) : Int) (min ((2 ^ 63 : Nat) - 1 : Int) (a.toInt + b.toInt)))

/-- A field descriptor: position, width in effect, sign extension (R106). -/
def fieldPos (b : W64) : Nat := fieldOf b 5 0
def fieldWidth (b : W64) : Nat := min (fieldOf b 12 6) (64 - fieldPos b)
def fieldSigned (b : W64) : Bool := b.getLsbD 13

/-- Field extraction (R106). -/
def bitExtract (a b : W64) : W64 :=
  let w := fieldWidth b
  let f := a.toNat / 2 ^ fieldPos b % 2 ^ w
  if w = 0 then 0 else if fieldSigned b then sext64 w f else BitVec.ofNat 64 f

/-- Field insertion into the old value of D (R106). -/
def bitInsert (old a b : W64) : W64 :=
  let m : W64 := BitVec.ofNat 64 ((2 ^ fieldWidth b - 1) * 2 ^ fieldPos b)
  mix m old (a <<< fieldPos b)

/-- Sign extension from bit k (R106). -/
def signFrom (a b : W64) : W64 := sext64 (shamt b + 1) a.toNat

/-- A compare writes one value to all 64 lanes of a predicate (R107). -/
def compare (f : W64 → W64 → Bool) (g : Fin 16) (p : Reg) (a b : Src) (s : State) : Res State := do
  let (x, y, t, s) ← srcSS a b s
  .ok (writeP p (if f x y then BitVec.allOnes 64 else 0) (t || predTaint s.c (guardReg g)) 1 s)

/-! ## The meanings -/

/-- `add` (R104). -/
def execAdd (g : Fin 16) (d : Dst) (a b : Src) (s : State) : Host.Outcome State Fault Refusal :=
  guarded g s (alu2 (fun a b => a + b) 1 g d a b)

/-- `sub` (R104). -/
def execSub (g : Fin 16) (d : Dst) (a b : Src) (s : State) : Host.Outcome State Fault Refusal :=
  guarded g s (alu2 (fun a b => a - b) 1 g d a b)

/-- `mul` (R104). -/
def execMul (g : Fin 16) (d : Dst) (a b : Src) (s : State) : Host.Outcome State Fault Refusal :=
  guarded g s (alu2 (fun a b => a * b) 3 g d a b)

/-- `mulh` (R104). -/
def execMulh (g : Fin 16) (d : Dst) (a b : Src) (s : State) : Host.Outcome State Fault Refusal :=
  guarded g s (alu2 (fun a b => mulHigh a b) 3 g d a b)

/-- `mulhu` (R104). -/
def execMulhu (g : Fin 16) (d : Dst) (a b : Src) (s : State) : Host.Outcome State Fault Refusal :=
  guarded g s (alu2 (fun a b => mulHighU a b) 3 g d a b)

/-- `div` (R104). -/
def execDiv (g : Fin 16) (d : Dst) (a b : Src) (s : State) : Host.Outcome State Fault Refusal :=
  guarded g s (alu2 (fun a b => quotS a b) 12 g d a b)

/-- `divu` (R104). -/
def execDivu (g : Fin 16) (d : Dst) (a b : Src) (s : State) : Host.Outcome State Fault Refusal :=
  guarded g s (alu2 (fun a b => quotU a b) 12 g d a b)

/-- `rem` (R104). -/
def execRem (g : Fin 16) (d : Dst) (a b : Src) (s : State) : Host.Outcome State Fault Refusal :=
  guarded g s (alu2 (fun a b => remS a b) 12 g d a b)

/-- `remu` (R104). -/
def execRemu (g : Fin 16) (d : Dst) (a b : Src) (s : State) : Host.Outcome State Fault Refusal :=
  guarded g s (alu2 (fun a b => remU a b) 12 g d a b)

/-- `and` (R104). -/
def execAnd (g : Fin 16) (d : Dst) (a b : Src) (s : State) : Host.Outcome State Fault Refusal :=
  guarded g s (alu2 (fun a b => a &&& b) 1 g d a b)

/-- `or` (R104). -/
def execOr (g : Fin 16) (d : Dst) (a b : Src) (s : State) : Host.Outcome State Fault Refusal :=
  guarded g s (alu2 (fun a b => a ||| b) 1 g d a b)

/-- `xor` (R104). -/
def execXor (g : Fin 16) (d : Dst) (a b : Src) (s : State) : Host.Outcome State Fault Refusal :=
  guarded g s (alu2 (fun a b => a ^^^ b) 1 g d a b)

/-- `andn` (R104). -/
def execAndn (g : Fin 16) (d : Dst) (a b : Src) (s : State) : Host.Outcome State Fault Refusal :=
  guarded g s (alu2 (fun a b => a &&& ~~~b) 1 g d a b)

/-- `shl` (R104). -/
def execShl (g : Fin 16) (d : Dst) (a b : Src) (s : State) : Host.Outcome State Fault Refusal :=
  guarded g s (alu2 (fun a b => a <<< shamt b) 1 g d a b)

/-- `shr` (R104). -/
def execShr (g : Fin 16) (d : Dst) (a b : Src) (s : State) : Host.Outcome State Fault Refusal :=
  guarded g s (alu2 (fun a b => a >>> shamt b) 1 g d a b)

/-- `sar` (R104). -/
def execSar (g : Fin 16) (d : Dst) (a b : Src) (s : State) : Host.Outcome State Fault Refusal :=
  guarded g s (alu2 (fun a b => a.sshiftRight (shamt b)) 1 g d a b)

/-- `rotl` (R104). -/
def execRotl (g : Fin 16) (d : Dst) (a b : Src) (s : State) : Host.Outcome State Fault Refusal :=
  guarded g s (alu2 (fun a b => a.rotateLeft (shamt b)) 1 g d a b)

/-- `min` (R104). -/
def execMin (g : Fin 16) (d : Dst) (a b : Src) (s : State) : Host.Outcome State Fault Refusal :=
  guarded g s (alu2 (fun a b => if a.slt b then a else b) 1 g d a b)

/-- `max` (R104). -/
def execMax (g : Fin 16) (d : Dst) (a b : Src) (s : State) : Host.Outcome State Fault Refusal :=
  guarded g s (alu2 (fun a b => if a.slt b then b else a) 1 g d a b)

/-- `minu` (R104). -/
def execMinu (g : Fin 16) (d : Dst) (a b : Src) (s : State) : Host.Outcome State Fault Refusal :=
  guarded g s (alu2 (fun a b => if a.ult b then a else b) 1 g d a b)

/-- `maxu` (R104). -/
def execMaxu (g : Fin 16) (d : Dst) (a b : Src) (s : State) : Host.Outcome State Fault Refusal :=
  guarded g s (alu2 (fun a b => if a.ult b then b else a) 1 g d a b)

/-- `addsat` (R104). -/
def execAddsat (g : Fin 16) (d : Dst) (a b : Src) (s : State) : Host.Outcome State Fault Refusal :=
  guarded g s (alu2 (fun a b => addSat a b) 1 g d a b)

/-- `clz` (R105). -/
def execClz (g : Fin 16) (d : Dst) (a : Src) (s : State) : Host.Outcome State Fault Refusal :=
  guarded g s (alu1 (fun a => BitVec.ofNat 64 (clzN 64 a.toNat)) 1 g d a)

/-- `ctz` (R105). -/
def execCtz (g : Fin 16) (d : Dst) (a : Src) (s : State) : Host.Outcome State Fault Refusal :=
  guarded g s (alu1 (fun a => BitVec.ofNat 64 (ctzN 64 a.toNat)) 1 g d a)

/-- `popc` (R105). -/
def execPopc (g : Fin 16) (d : Dst) (a : Src) (s : State) : Host.Outcome State Fault Refusal :=
  guarded g s (alu1 (fun a => BitVec.ofNat 64 (popN 64 a.toNat)) 1 g d a)

/-- `bfx` (R106). -/
def execBfx (g : Fin 16) (d : Dst) (a b : Src) (s : State) : Host.Outcome State Fault Refusal :=
  guarded g s (alu2 bitExtract 1 g d a b)

/-- `bfi`, which reads D as a source (R106); the old value's taint joins (R95). -/
def execBfi (g : Fin 16) (d : Reg) (a b : Src) (s : State) : Host.Outcome State Fault Refusal :=
  guarded g s (fun s => do
    let (x, y, t, s) ← srcSS a b s
    let (old, u) ← srcReg d s
    writeReg d (bitInsert old x y) (t || u || predTaint s.c (guardReg g)) 1 s)

/-- `sext` (R106). -/
def execSext (g : Fin 16) (d : Dst) (a b : Src) (s : State) : Host.Outcome State Fault Refusal :=
  guarded g s (alu2 signFrom 1 g d a b)

/-- `ceq` (R107). -/
def execCeq (g : Fin 16) (p : Reg) (a b : Src) (s : State) : Host.Outcome State Fault Refusal :=
  guarded g s (compare (fun a b => a = b) g p a b)

/-- `cne` (R107). -/
def execCne (g : Fin 16) (p : Reg) (a b : Src) (s : State) : Host.Outcome State Fault Refusal :=
  guarded g s (compare (fun a b => a ≠ b) g p a b)

/-- `clt` (R107). -/
def execClt (g : Fin 16) (p : Reg) (a b : Src) (s : State) : Host.Outcome State Fault Refusal :=
  guarded g s (compare (fun a b => a.slt b) g p a b)

/-- `cltu` (R107). -/
def execCltu (g : Fin 16) (p : Reg) (a b : Src) (s : State) : Host.Outcome State Fault Refusal :=
  guarded g s (compare (fun a b => a.ult b) g p a b)

/-- `cle` (R107). -/
def execCle (g : Fin 16) (p : Reg) (a b : Src) (s : State) : Host.Outcome State Fault Refusal :=
  guarded g s (compare (fun a b => a.sle b) g p a b)

/-- `cleu` (R107). -/
def execCleu (g : Fin 16) (p : Reg) (a b : Src) (s : State) : Host.Outcome State Fault Refusal :=
  guarded g s (compare (fun a b => a.ule b) g p a b)

/-- `sel`: G selects and does not guard (R108). -/
def execSel (p : Fin 16) (d : Dst) (a b : Src) (s : State) : Host.Outcome State Fault Refusal :=
  always s (fun s => do
    let (x, y, t, s) ← srcSS a b s
    writeS d (if predUni s.c (guardReg p) then x else y) (t || predTaint s.c (guardReg p)) 1 s)

/-- `mov` (R109). -/
def execMov (g : Fin 16) (d : Dst) (a : Src) (s : State) : Host.Outcome State Fault Refusal :=
  guarded g s (alu1 (fun a => a) 1 g d a)

end Sys2Proof.Machine
end

