-- ==== Sys2Proof/Machine/Branch.lean ====
section
/-! DEFINITION. The branch unit: transfers of control, loop counters and predicate logic (R98 to R100,
R110 to R113). -/

namespace Sys2Proof.Machine

/-- The target of a relative transfer: the group start plus the offset times 4 (R37, R110). -/
def relTarget (pc : W64) (off : W16) : W64 := pc + off.signExtend 64 * 4

/-- The group transfers control to t when it has taken effect (R99). -/
def goto (t : W64) (s : State) : State := { s with grp := { s.grp with target := some t } }

/-- A gang goes on together: a transfer of control whose target differs at a companion traps FUSE; whether it does is not
known to this core (R397, log 14). -/
def together (s : State) : Res Unit := need (s.c.id.gsize = 0 || !Config.gangParts s.tick) .fuse

/-- `br` and `jal` share the predicate check and the condition (R98, R110). -/
def branchIf (p : Reg) (n : Bool) (s : State) (taken : State → Res State) : Res State :=
  if !predUniform s.c p then trapAt .nonuniformBranch 0
  else do
    together s
    if predUni s.c p != n then taken s else .ok s

/-- `br` (R110). -/
def execBr (p : Reg) (n : Bool) (off : W16) (s : State) : Host.Outcome State Fault Refusal :=
  always s (fun s => branchIf p n s (fun s => .ok (goto (relTarget s.grp.pc off) s)))

/-- `jal` links the address of the group that follows in s30 (R110). -/
def execJal (p : Reg) (n : Bool) (off : W16) (s : State) : Host.Outcome State Fault Refusal :=
  always s (fun s => branchIf p n s (fun s => do
    let s ← writeReg 30 s.grp.nx (predTaint s.c p) 1 s
    .ok (goto (relTarget s.grp.pc off) s)))

/-- `jr`, with a link in D where D is not 0 (R111). -/
def execJr (g : Fin 16) (d : Reg) (a b : Src) (s : State) : Host.Outcome State Fault Refusal :=
  guarded g s (fun s => do
    let (x, y, t, s) ← srcSS a b s
    together s
    let s ← if d = 0 then .ok s else writeReg d s.grp.nx (t || predTaint s.c (guardReg g)) 1 s
    .ok (goto (x + y) s))

/-- `loop` (R110). -/
def execLoop (n : Fin 4) (off : W16) (s : State) : Host.Outcome State Fault Refusal :=
  always s (fun s => do
    together s
    let c := s.c.a.lc[n]
    if 1 < c.toNat then .ok (goto (relTarget s.grp.pc off) (sched (.lc n (c - 1)) 1 s))
    else .ok (sched (.lc n 0) 1 s))

/-- `lset` (R112). -/
def execLset (g : Fin 16) (n : Fin 4) (a : Src) (s : State) : Host.Outcome State Fault Refusal :=
  guarded g s (fun s => do
    let (x, _, s) ← srcS a s
    .ok (sched (.lc n (x.extractLsb' 0 32)) 1 s))

/-- The BP form: PD takes f of the lanes of PA and PB, and their taint (R95, R113). -/
def predOp (f : LaneMask → LaneMask → LaneMask) (pd pa pb : Reg) (s : State) : Host.Outcome State Fault Refusal :=
  always s (fun s =>
    .ok (writeP pd (f (predLanes s.c pa) (predLanes s.c pb)) (predTaint s.c pa || predTaint s.c pb) 1 s))

/-- A condition in every lane. -/
def allOrNone (b : Bool) : LaneMask := if b then BitVec.allOnes 64 else 0

/-- `pand` (R113). -/
def execPand (pd pa pb : Reg) (s : State) : Host.Outcome State Fault Refusal := predOp (fun a b => a &&& b) pd pa pb s
/-- `por` (R113). -/
def execPor (pd pa pb : Reg) (s : State) : Host.Outcome State Fault Refusal := predOp (fun a b => a ||| b) pd pa pb s
/-- `pxor` (R113). -/
def execPxor (pd pa pb : Reg) (s : State) : Host.Outcome State Fault Refusal := predOp (fun a b => a ^^^ b) pd pa pb s
/-- `pandn` (R113). -/
def execPandn (pd pa pb : Reg) (s : State) : Host.Outcome State Fault Refusal := predOp (fun a b => a &&& ~~~b) pd pa pb s
/-- `pnot` (R113). -/
def execPnot (pd pa : Reg) (s : State) : Host.Outcome State Fault Refusal := predOp (fun a _ => ~~~a) pd pa 0 s
/-- `pany` (R113). -/
def execPany (pd pa pb : Reg) (s : State) : Host.Outcome State Fault Refusal :=
  predOp (fun a b => allOrNone (a &&& b ≠ 0)) pd pa pb s
/-- `pall` (R113). -/
def execPall (pd pa pb : Reg) (s : State) : Host.Outcome State Fault Refusal :=
  predOp (fun a b => allOrNone (a ||| ~~~b = BitVec.allOnes 64)) pd pa pb s
/-- `pset` (R113). -/
def execPset (pd : Reg) (v : Bool) (s : State) : Host.Outcome State Fault Refusal :=
  predOp (fun _ _ => allOrNone v) pd 0 0 s

end Sys2Proof.Machine
end

