-- ==== Sys2Proof/Machine/Crypto.lean ====
section
/-! DEFINITION. SHA-256 (FIPS 180-4) and ECDSA on curve P-256 (FIPS 186-5), for firmware signing, identity and attestation
(R2, R428, R429). -/

namespace Sys2Proof.Machine

/-! ## SHA-256 -/

/-- The first 64 prime numbers. -/
def shaPrimes : List Nat := (List.range 312).filter (fun n => 2 ≤ n && (List.range 18).all (fun d => d < 2 || d = n || n % d ≠ 0))

/-- The first 32 bits of the fractional part of the k-th root of n, a number below 2 to the power of 9: the root is found bit by
bit, from 2 to the power of 4 down. -/
def rootFraction (k n : Nat) : W32 :=
  BitVec.ofNat 32 ((List.range 37).foldl (fun x i => if (x + 2 ^ (36 - i)) ^ k ≤ n * 2 ^ (32 * k) then x + 2 ^ (36 - i) else x) 0)

/-- The constants of the 64 rounds come from cube roots, the initial hash value from square roots. -/
def shaRound : List W32 := shaPrimes.map (rootFraction 3)
def shaInit : List W32 := (shaPrimes.take 8).map (rootFraction 2)

/-- The words of a message schedule after the first 16, newest first. -/
def shaSchedule : Nat → List W32 → List W32
  | 0, w => w
  | n + 1, w =>
    let x := w.getD 1 0
    let y := w.getD 14 0
    let s1 := x.rotateRight 17 ^^^ x.rotateRight 19 ^^^ (x >>> 10)
    let s0 := y.rotateRight 7 ^^^ y.rotateRight 18 ^^^ (y >>> 3)
    shaSchedule n ((s1 + w.getD 6 0 + s0 + w.getD 15 0) :: w)

/-- One round on the eight working variables. -/
def shaStep (v : List W32) (kw : W32 × W32) : List W32 :=
  match v with
  | [a, b, c, d, e, f, g, h] =>
    let t1 := h + (e.rotateRight 6 ^^^ e.rotateRight 11 ^^^ e.rotateRight 25) + ((e &&& f) ^^^ (~~~e &&& g)) + kw.1 + kw.2
    let t2 := (a.rotateRight 2 ^^^ a.rotateRight 13 ^^^ a.rotateRight 22) + ((a &&& b) ^^^ (a &&& c) ^^^ (b &&& c))
    [t1 + t2, a, b, c, d + t1, e, f, g]
  | _ => v

/-- The big-endian number of some bytes. -/
def bigEndian (b : List Byte) : Nat := b.foldl (fun n x => 256 * n + x.toNat) 0

/-- A 64-byte block is compressed into the hash value. -/
def shaBlock (h : List W32) (b : List Byte) : List W32 :=
  let w0 := (List.range 16).map (fun i => BitVec.ofNat 32 (bigEndian ((b.drop (4 * i)).take 4)))
  let w := (shaSchedule 48 w0.reverse).reverse
  List.zipWith (· + ·) h ((List.zip shaRound w).foldl shaStep h)

/-- The padding of a message of n bytes. -/
def shaPadding (n : Nat) : List Byte :=
  [0x80] ++ List.replicate ((119 - n % 64) % 64) 0 ++ (List.range 8).map (fun i => BitVec.ofNat 8 (8 * n / 2 ^ (56 - 8 * i)))

/-- SHA-256 of a byte string. -/
def sha256 (m : List Byte) : BitVec 256 :=
  let b := m ++ shaPadding m.length
  let h := (List.range (b.length / 64)).foldl (fun h i => shaBlock h ((b.drop (64 * i)).take 64)) shaInit
  BitVec.ofNat 256 (h.foldl (fun n x => 2 ^ 32 * n + x.toNat) 0)

/-! ## Curve P-256 -/

/-- The field, the order of the group, the coefficient b, and the base point. -/
def p256P : Nat := 0xffffffff00000001000000000000000000000000ffffffffffffffffffffffff
def p256N : Nat := 0xffffffff00000000ffffffffffffffffbce6faada7179e84f3b9cac2fc632551
def p256B : Nat := 0x5ac635d8aa3a93e7b3ebbd55769886bc651d06b0cc53b0f63bce3c3e27d2604b
def p256G : Nat × Nat :=
  (0x6b17d1f2e12c4247f8bce6e563a440f277037d812deb33a0f4a13945d898c296,
   0x4fe342e2fe1a7f9b8ee7eb4a7c0f9e162bce33576b315ececbb6406837bf51f5)

/-- x to the power of e modulo m; the first argument counts bits of e. -/
def powMod (m : Nat) : Nat → Nat → Nat → Nat
  | 0, _, _ => 1
  | k + 1, x, e => (if e % 2 = 1 then x else 1) * powMod m k (x * x % m) (e / 2) % m

/-- The inverse modulo a prime. -/
def invMod (m x : Nat) : Nat := powMod m 256 (x % m) (m - 2)

/-- The sum of two points, of which none is the point at infinity. -/
def p256Add (a b : Option (Nat × Nat)) : Option (Nat × Nat) :=
  match a, b with
  | none, q => q
  | p, none => p
  | some (x1, y1), some (x2, y2) =>
    if x1 = x2 && (y1 + y2) % p256P = 0 then none
    else
      let l := if x1 = x2 then (3 * x1 * x1 + (p256P - 3)) * invMod p256P (2 * y1) % p256P
        else (y2 + p256P - y1) * invMod p256P (x2 + p256P - x1) % p256P
      let x3 := (l * l + 2 * p256P - x1 - x2) % p256P
      some (x3, (l * (x1 + p256P - x3) + (p256P - y1)) % p256P)

/-- k times a point; the first argument counts bits of k. -/
def p256Mul : Nat → Nat → Option (Nat × Nat) → Option (Nat × Nat)
  | 0, _, _ => none
  | n + 1, k, a => p256Add (if k % 2 = 1 then a else none) (p256Mul n (k / 2) (p256Add a a))

/-- A point of the curve other than the one at infinity. -/
def onCurve (q : Nat × Nat) : Bool :=
  q.1 < p256P && q.2 < p256P && (q.2 * q.2) % p256P = (q.1 * q.1 * q.1 + (p256P - 3) * q.1 + p256B) % p256P

/-! ## ECDSA -/

/-- A public key is 64 bytes, x and then y, each big-endian; a signature is r and then s (log 8). -/
def keyPoint (key : List Byte) : Nat × Nat := (bigEndian (key.take 32), bigEndian ((key.drop 32).take 32))
def signatureOf (r s : Nat) : BitVec 512 := BitVec.ofNat 512 (r * 2 ^ 256 + s)

/-- A signature of a digest verifies under a public key. -/
def ecdsaVerify (key : List Byte) (digest : BitVec 256) (sig : BitVec 512) : Bool :=
  let q := keyPoint key
  let r := sig.toNat / 2 ^ 256
  let s := sig.toNat % 2 ^ 256
  if key.length ≠ 64 || !onCurve q || r = 0 || p256N ≤ r || s = 0 || p256N ≤ s then false
  else
    let w := invMod p256N s
    let u := digest.toNat * w % p256N
    let v := r * w % p256N
    match p256Add (p256Mul 256 u (some p256G)) (p256Mul 256 v (some q)) with
    | none => false
    | some x => x.1 % p256N = r

/-- The signature of a digest under a private key, with its secret number. -/
def ecdsaSign (d k : Nat) (digest : BitVec 256) : BitVec 512 :=
  let k := k % (p256N - 1) + 1
  match p256Mul 256 k (some p256G) with
  | none => 0
  | some x =>
    let r := x.1 % p256N
    signatureOf r (invMod p256N k * (digest.toNat + r * (d % (p256N - 1) + 1)) % p256N)

/-- The public key of a private key. -/
def publicKey (d : Nat) : List Byte :=
  match p256Mul 256 (d % (p256N - 1) + 1) (some p256G) with
  | none => []
  | some (x, y) => (bytesOf 32 x).reverse ++ (bytesOf 32 y).reverse

end Sys2Proof.Machine
end

