-- ==== Sys2Proof/Machine/Fetch.lean ====
section
/-! DEFINITION. Fetching the words of a group (R38, R44, R100, R144). -/

namespace Sys2Proof.Machine

/-- One word of code: device space only, under an executable page (R100, R144, R160); a page under migration is waited
for (R164). -/
def fetchWord (va : W64) (s : State) : Res (W32 × State) :=
  if spaceOf va ≠ 0 || nodeOf va ≠ 0 then trapWith .address
  else do
    let (pa, s) ← paOf 0 .fetch va s
    if s.pkg.migrating.contains (alignDown pa (2 ^ 16)) then waitRoom
    else .ok (BitVec.ofNat 32 (getNum s.pkg.mem pa 4), s)

/-- At most n words from an address, through the first whose stop bit is set (R38). -/
def fetchWords (va : W64) : Nat → State → Res (List W32 × State)
  | 0, s => .ok ([], s)
  | n + 1, s => do
    let (w, s) ← fetchWord va s
    if stopOf w then .ok ([w], s)
    else
      let (l, s) ← fetchWords (va + 4) n s
      .ok (w :: l, s)

/-- The address after a group of n slots. -/
def afterGroup (va : W64) (n : Nat) : W64 := va + BitVec.ofNat 64 (4 * n)

end Sys2Proof.Machine
end

