-- ==== Sys2Proof/Machine/System.lean ====
section
/-! DEFINITION. Task, trap, gang, priority and stream slots, and device time (R411 to R419). -/

namespace Sys2Proof.Machine

/-! ## Tasks -/

/-- `tspawn` (R412). -/
def execTspawn (g : Fin 16) (a b : Src) (s : State) : Host.Outcome State Fault Refusal :=
  guarded g s (fun s => do
    let (x, y, _, s) ← srcSS a b s
    let n := y.toNat % 128
    need (1 ≤ n && n ≤ 64) .illegal
    need (x.toNat % 64 = 0) .misalign
    .ok (buffer (.spawn x n) s))

/-- `texit` commits at package scope and ends the context (R178, R413). -/
def execTexit (g : Fin 16) (s : State) : Host.Outcome State Fault Refusal :=
  guarded g s (fun s => do
    closeMatrix s
    .ok (beginCommit .pkg .texit s))

/-- `halt` is supervisor's, and also halts the core (R413). -/
def execHalt (g : Fin 16) (s : State) : Host.Outcome State Fault Refusal :=
  guarded g s (fun s => do
    need s.c.id.sup .priv
    closeMatrix s
    .ok (beginCommit .pkg .halt s))

/-! ## Traps -/

/-- `trap` (R414). -/
def execTrap (g : Fin 16) (a : Src) (s : State) : Host.Outcome State Fault Refusal :=
  guarded g s (fun s => do
    let (x, _, _) ← srcS a s
    trapAt .swtrap (BitVec.ofNat 64 (x.toNat % 2 ^ 28)))

/-- The address after the group at a start: the group that follows it in memory (R415). Where the start is not
4-byte aligned there is none, and the transfer goes to the start itself. -/
def nextGroup (va : W64) (s : State) : Res (W64 × State) :=
  if va.toNat % 4 ≠ 0 then .ok (va, s)
  else do
    let (l, s) ← fetchWords va 8 s
    .ok (afterGroup va l.length, s)

/-- `rfe` (R52, R415): it waits for the loads that the handler issued in earlier groups. -/
def execRfe (next : Bool) (s : State) : Host.Outcome State Fault Refusal :=
  always s (fun s => do
    need s.c.a.inh .illegal
    if (atStart s).c.ops.any (fun o => !o.held) then waitData
    else
      together s
      let (t, s) ← if next then nextGroup s.c.a.trpc s else .ok (s.c.a.trpc, s)
      .ok (returnFrom t s))

/-! ## Gangs -/

/-- The number of cores of a gang form. -/
def gangSize : GangForm → Nat
  | .w2 => 2 | .w4 => 4 | .t2 => 2

/-- The core's number within its grove (R11). -/
def coreNumber : Nat := Config.coreId.toNat % 16

/-- The task has LINK set. -/
def taskLink (c : Ctx) : Bool := c.id.link

/-- `fuse` (R416). -/
def execFuse (g : Fin 16) (f : GangForm) (s : State) : Host.Outcome State Fault Refusal :=
  guarded g s (fun s => do
    need (s.c.id.gsize = 0 && !s.c.id.dec && coreNumber % gangSize f = 0 && !taskLink s.c) .fuse
    .ok (buffer (.fuse f) s))

/-- The members of the gang that the context is in, by core id (R397). -/
def gangMembers (c : Ctx) : List (BitVec 8) :=
  let n := if c.id.gsize = 2 then 4 else 2
  (span (alignDown Config.coreId.toNat n) n).map (BitVec.ofNat 8)

/-- `decpl` claims the grove's rejoin line as it issues (R416). -/
def execDecpl (g : Fin 16) (s : State) : Host.Outcome State Fault Refusal :=
  guarded g s (fun s => do
    need (s.c.id.gsize ≠ 0 && !s.c.id.twin && s.pkg.rejoin.isNone) .fuse
    let mates := (s.pkg.others.filter (mateOf s)).map (·.ctxid)
    .ok (buffer .decpl (s.withPkg { s.pkg with rejoin := some ⟨gangMembers s.c, [], none, mates⟩ })))

/-- `rejoin` sets the member's line bit and waits for the others (R398, R416). -/
def execRejoin (g : Fin 16) (s : State) : Host.Outcome State Fault Refusal :=
  guarded g s (fun s => do
    need s.c.id.dec .fuse
    let line := s.pkg.rejoin.map (fun r => { r with bits := Config.coreId :: r.bits, at_ := some s.grp.pc })
    .ok (waitFor .rejoin (emit (s.withPkg { s.pkg with rejoin := line }))))

/-! ## Priority -/

/-- `prio` (R417). -/
def execPrio (g : Fin 16) (a : Src) (s : State) : Host.Outcome State Fault Refusal :=
  guarded g s (fun s => do
    let (x, _, s) ← srcS a s
    let p := x.extractLsb' 0 3
    .ok (sched (.prio (if s.c.id.sup || p.ule s.c.id.prio then p else s.c.id.prio)) 1 s))

/-! ## Streams -/

/-- The bytes of AS that the entries of a core hold in its stream area (R406, R407). -/
def streamExtents (t : Table Stream) (core : BitVec 8) : List (Nat × Nat) :=
  (t.filter (fun e => e.2.core = core && e.2.state ≠ .evicted)).map (fun e => (e.2.off, 512 * e.2.half))

/-- The lowest free OFF for n bytes in the stream area (R418). -/
def streamRoom (p : Pkg) (core : BitVec 8) (n : Nat) : Option Nat :=
  let l := streamExtents p.streams core
  let base := streamAreaBase p
  let fits (o : Nat) : Bool := o + n ≤ bufSize false && l.all (fun e => o + n ≤ e.1 || e.1 + e.2 ≤ o)
  ((base :: l.map (fun e => e.1 + e.2)).filter fits).foldl (fun b o => match b with
    | none => some o
    | some x => some (min x o)) none

/-- `sct.pin` (R418): its checks in their order, then the reservation of the room and the pins of HOME. -/
def execSctPin (g : Fin 16) (a b : Src) (s : State) : Host.Outcome State Fault Refusal :=
  guarded g s (fun s => do
    let (x, y, _, s) ← srcSS a b s
    let id := x.extractLsb' 0 12
    let half := fieldOf x 31 16
    need (1 ≤ half && half ≤ 128 && fieldOf x 15 12 = 0) .illegal
    need (y.toNat % 2 ^ 16 = 0) .misalign
    need (s.c.id.strm && s.c.id.stream = id && s.c.id.strinfo = 0) .stream
    need ((look s.pkg.streams id.toNat).isNone) .stream
    match streamRoom s.pkg Config.coreId (512 * half) with
    | none => trapWith .stream
    | some off =>
      if spaceOf y ≠ 0 || nodeOf y ≠ 0 then trapAt .unmapped y
      else
        let (pa, s) ← paOf 0 .both y s
        let e : Stream := ⟨.reserved, Config.coreId, off, half, [pa], y, x.extractLsb' 32 32, s.pkg.devtime, s.c.id.ctxid, false⟩
        .ok (buffer (.sctPin id)
          (s.withPkg (pinFrames [pa] { s.pkg with streams := put s.pkg.streams id.toNat e }))))

/-- `sct.rel` (R418). -/
def execSctRel (g : Fin 16) (w : Bool) (a : Src) (s : State) : Host.Outcome State Fault Refusal :=
  guarded g s (fun s => do
    let (x, _, s) ← srcS a s
    let id := x.extractLsb' 0 12
    match look s.pkg.streams id.toNat with
    | none => trapWith .stream
    | some e =>
      need (e.state = .active && e.owner = s.c.id.ctxid) .stream
      .ok (buffer (.sctRel id w) s))

/-! ## Time -/

/-- What `time.rd` reads of DEVTIME (R405, R419). -/
def timeValue (m : Bool) (t : W64) : W64 :=
  if m then BitVec.ofNat 64 (t.toNat / 1000000000 % 2 ^ 32 * 2 ^ 32 + t.toNat % 1000000000) else t

/-- `time.rd` (R419). -/
def execTimeRd (g : Fin 16) (d : Dst) (m : Bool) (s : State) : Host.Outcome State Fault Refusal :=
  guarded g s (fun s => writeS d (timeValue m (atStart s).pkg.devtime) (predTaint s.c (guardReg g)) 1 s)

end Sys2Proof.Machine
end

