-- ==== Sys2Proof/Machine/Sysreg.lean ====
section
/-! DEFINITION. System registers: what each reads, what a write does, and the device clock (R297, R405, R409, R410, R419,
R423, R435). -/

namespace Sys2Proof.Machine

/-! ## Reading -/

/-- CTXSTAT (R410). -/
def ctxstatValue (c : Ctx) : W64 :=
  joinFields [(c.id.ctxid.toNat, 32), (Config.coreId.toNat, 24), (c.id.grank.toNat, 18), (c.id.gsize.toNat, 16),
    (c.id.twin.toNat, 15), (c.id.dec.toNat, 14), (c.a.inh.toNat, 13), (c.id.sup.toNat, 12), (c.id.prt.toNat, 11),
    (c.id.lease.toNat, 10), (c.a.iprio.toNat, 0)]

/-- QUOTA with USED (R268). -/
def quotaValue (s : State) : W64 := mix 0xFFFF s.c.a.quota (BitVec.ofNat 64 (quotaUsed s.core (tenantOf s.c)))

/-- A context register as its number reads it; none where the number is not listed (R409). -/
def ctxReg (n : BitVec 12) (s : State) : Option W64 :=
  let a := s.c.a
  match n.toNat with
  | 0x000 => some s.c.phseq
  | 0x001 => some a.phbudget
  | 0x002 => some a.trcause
  | 0x003 => some a.trmask
  | 0x004 => some a.trpc
  | 0x005 => some a.traddr
  | 0x006 => some (ctxstatValue s.c)
  | 0x007 => some a.trvec
  | 0x010 => some (a.lc[0].zeroExtend 64)
  | 0x011 => some (a.lc[1].zeroExtend 64)
  | 0x012 => some (a.lc[2].zeroExtend 64)
  | 0x013 => some (a.lc[3].zeroExtend 64)
  | 0x020 => some (quotaValue s)
  | 0x021 => some a.asid
  | 0x022 => some a.ptroot
  | 0x023 => some a.ptpool
  | 0x024 => some a.pthost
  | 0x025 => some a.pmroot
  | 0x026 => some a.tensbase
  | 0x027 => some a.pmsize
  | 0x028 => some (s.c.id.savebase &&& 0xFFFFFFFFFFFFF000)
  | 0x029 => some (s.c.id.ctxenv &&& 0x000FFFFFFFFFFF80)
  | 0x02A => some s.c.id.strinfo
  | _ => none

/-- DEVID (R1). -/
def devidValue (p : Pkg) : W64 := joinFields [(0x1E4D0880, 32), (2, 24), (p.cores.toNat, 8)]

/-- ROUTECFG (R294). -/
def routecfgValue (f : Fabric) : W64 :=
  joinFields [(f.drop.toNat, 48), (f.ext.toNat, 32), (min (drainCount f) 0xFFFFFF, 8), (f.ver.toNat, 0)]

/-- RTDAT: entry NODE of copy COPY (R294). -/
def rtdatValue (p : Pkg) : W64 := routeEntry p (p.fab.rtidx.getLsbD 12) (p.fab.rtidx.extractLsb' 0 12)

/-- The codes of a link's state (R297). -/
def linkCode : LinkState → Nat
  | .off => 0 | .training => 1 | .up => 2 | .retrain => 3 | .degraded => 4 | .failed => 5

/-- LNKS of a link (R297). -/
def lnksValue (l : Link) : W64 :=
  joinFields [(l.crcerr.toNat, 32), (l.replay.toNat, 16), (l.lanes, 10), (l.conn.toNat, 3), (linkCode l.state, 0)]

/-- CORESTAT of a core (R285). -/
def corestatValue (p : Pkg) (core : BitVec 8) : W64 :=
  let h := healthOf p core
  joinFields [(h.errcnt.toNat, 16), ((p.retired.contains core).toNat, 7), (h.katf.toNat, 6),
    ((p.cullet.contains core).toNat, 5), (h.narc.toNat, 2), (h.narv.toNat, 0)]

/-- The die of the modelled core, whose dispatcher LWADDR and LWENV reach (R409). -/
def ownDie : Fin 2 := if Config.coreId.toNat < 128 then 0 else 1

/-- The lowest four bits of a register number, and the lowest three as a link. -/
def lowNibble (n : BitVec 12) : Fin 16 := (n.extractLsb' 0 4).toFin

/-- A package register as its number reads it; none where the number is not listed (R409). -/
def pkgReg (n : BitVec 12) (s : State) : Option W64 :=
  let p := s.pkg
  let k := n.toNat
  if k = 0x800 then some (devidValue p)
  else if k = 0x801 then some (p.nodeid.zeroExtend 64)
  else if k = 0x802 then some p.devtime
  else if k = 0x803 then some p.freezemax
  else if k = 0x804 then some (routecfgValue p.fab)
  else if k = 0x805 then some p.fab.rtidx
  else if k = 0x806 then some (rtdatValue p)
  else if k = 0x807 then some p.fab.fabcfg
  else if k = 0x808 then some p.fab.rwroot
  else if h : 0x810 ≤ k ∧ k < 0x816 then some (lnksValue p.links[k - 0x810])
  else if k = 0x820 then some p.hbm.lanemap
  else if k = 0x821 then some p.hbm.ecclog
  else if k = 0x822 then some p.hbm.linklog
  else if h : 0x830 ≤ k ∧ k < 0x834 then some p.haltmask[k - 0x830]
  else if k = 0x834 then some p.sctcfg
  else if 0x840 ≤ k && k < 0x850 then some (s.disp ownDie).lwaddr[lowNibble n]
  else if 0x850 ≤ k && k < 0x860 then some (s.disp ownDie).lwenv[lowNibble n]
  else if k = 0x860 then some p.abortring
  else if 0x900 ≤ k && k < 0xA00 then some (corestatValue p (n.extractLsb' 0 8))
  else none

/-- EMERGBASE, the one firmware register (R409). -/
def firmwareReg (n : BitVec 12) : Bool := n.toNat = 0xC00

/-- User mode may read the register (R409). -/
def userReads (n : BitVec 12) : Bool := n.toNat < 0x400 || n.toNat = 0x800 || n.toNat = 0x801 || n.toNat = 0x802

/-- The value of a register as a slot of the running context reads it: ILLEGAL for an unlisted number, PRIV for one its
mode may not read (R402, R409). -/
def readSysreg (n : BitVec 12) (s : State) : Res W64 :=
  if firmwareReg n then trapWith .priv
  else match ctxReg n s <|> pkgReg n s with
    | none => trapWith .illegal
    | some x => if s.c.id.sup || userReads n then .ok x else trapWith .priv

/-- `sys.rd` (R419). -/
def execSysRd (g : Fin 16) (d : Dst) (a : Src) (s : State) : Host.Outcome State Fault Refusal :=
  guarded g s (fun s => do
    let (x, t, s) ← srcS a s
    let v ← readSysreg (x.extractLsb' 0 12) (atStart s)
    writeS d v (t || predTaint s.c (guardReg g)) 2 s)

/-! ## The clock (R405, R423) -/

/-- DEVTIME is set: it steps forward, or slews until it has lost the difference; a correction in progress is cancelled and
the next PPS edge is ignored. -/
def setDevtime (v : W64) (p : Pkg) : Pkg :=
  { p with
    devtime := if p.devtime.ult v then v else p.devtime
    slew := if p.devtime.ult v then 0 else (p.devtime - v).toNat
    slewFrac := 0
    gain := 0
    gainFrac := 0
    ppsSkip := true }

/-- n nanoseconds of real time pass: DEVTIME runs at 15/16 while it slews, and at 17/16 while it gains. -/
def passTime (n : Nat) (p : Pkg) : Pkg :=
  let m := min n (16 * p.slew - p.slewFrac)
  let k := min n (16 * p.gain - p.gainFrac)
  let lost := (p.slewFrac + m) / 16
  let won := (p.gainFrac + k) / 16
  { p with
    devtime := p.devtime + BitVec.ofNat 64 (n - lost + won)
    slewFrac := (p.slewFrac + m) % 16
    slew := p.slew - lost
    gainFrac := (p.gainFrac + k) % 16
    gain := p.gain - won }

/-- How far a device time lies past the nearest full second. -/
def ppsError (t : W64) : Int := (t.toNat : Int) - 1000000000 * ((t.toNat + 500000000) / 1000000000 : Nat)

/-- A rising PPS edge (R423). -/
def ppsSample (p : Pkg) : Pkg :=
  let e := ppsError p.devtime
  if p.ppsSkip then { p with ppsSkip := false }
  else if 20 < e && e ≤ 1000000 then { p with slew := e.toNat, slewFrac := 0, gain := 0, gainFrac := 0 }
  else if -1000000 ≤ e && e < -20 then { p with gain := (-e).toNat, gainFrac := 0, slew := 0, slewFrac := 0 }
  else p

/-- The real time after which the correction in progress has ended. -/
def slewLeft (p : Pkg) : Nat := max (16 * p.slew - p.slewFrac) (16 * p.gain - p.gainFrac)

def execDevtimeWrite (v : W64) (s : State) : Host.Outcome State Fault Refusal := event (s.withPkg (setDevtime v s.pkg))
def execPpsEdge (s : State) : Host.Outcome State Fault Refusal := event (s.withPkg (ppsSample s.pkg))
def execDevtimeSlewEnd (s : State) : Host.Outcome State Fault Refusal :=
  event (s.withPkg (passTime (slewLeft s.pkg) s.pkg))

/-! ## Writing -/

/-- ROUTECFG.VER takes a value; a new one is ignored while DRAIN is not zero (R294). -/
def setVer (v : Bool) (f : Fabric) : Fabric := if v ≠ f.ver && drainCount f ≠ 0 then f else { f with ver := v }

/-- ROUTECFG is written: VER, EXT, and DROP by ones (R294). -/
def setRoutecfg (x : W64) (f : Fabric) : Fabric :=
  { setVer (x.getLsbD 0) f with ext := x.extractLsb' 32 12, drop := f.drop &&& ~~~(x.extractLsb' 48 16) }

/-- RTDAT is written: entry NODE of the standby copy (R293, R294). -/
def setRtdat (x : W64) (f : Fabric) : Fabric :=
  let node := fieldOf f.rtidx 11 0
  let e := x &&& 0x1FF
  if f.ver then { f with table0 := put f.table0 node e } else { f with table1 := put f.table1 node e }

/-- SCTCFG is written, where every stream entry is FREE (R410). -/
def setSctcfg (x : W64) (p : Pkg) : Pkg := if p.streams.isEmpty then { p with sctcfg := x &&& 0x1F0000 } else p

/-- HALTMASK k is written: ones clear (R410). -/
def clearHalt (k : Nat) (x : W64) (p : Pkg) : Pkg :=
  { p with haltmask := p.haltmask.mapIdx (fun i h => if i = k then h &&& ~~~x else h) }

/-- CORESTAT of a core is written: ones clear CULLET and KATF (R285). -/
def clearHealth (core : BitVec 8) (x : W64) (p : Pkg) : Pkg :=
  let p := if x.getLsbD 5 then { p with cullet := p.cullet.filter (fun c => c ≠ core) } else p
  if x.getLsbD 6 then setHealth core { healthOf p core with katf := false } p else p

/-- LWADDR and LWENV of a slot are written (R410). -/
def setLwaddr (n : Fin 16) (x : W64) (d : Dispatcher) : Dispatcher :=
  { d with lwaddr := d.lwaddr.set n (x &&& ~~~6) }
def setLwenv (n : Fin 16) (x : W64) (d : Dispatcher) : Dispatcher :=
  { d with lwenv := d.lwenv.set n (x &&& 0x000FFFFFFFFFFF80) }

/-- The ECC log, or the link log, is written: V alone clears it, and any other bit traps PRIV (R435). -/
def logWrite (x : W64) : Res Bool :=
  if x = 0x8000000000000000 then .ok true else if x = 0 then .ok false else trapWith .priv

/-- The fabric replaced. -/
def State.withFab (s : State) (f : Fabric) : State := s.withPkg { s.pkg with fab := f }

/-- A package register is written by a supervisor (R294, R307, R410, R435): PRIV where it has no field to write, ILLEGAL
where the number is not listed. -/
def writePkgReg (n : BitVec 12) (x : W64) (s : State) : Res State :=
  let p := s.pkg
  let f := p.fab
  let k := n.toNat
  if k = 0x802 then .ok (s.withPkg (setDevtime x p))
  else if k = 0x803 then .ok (s.withPkg { p with freezemax := x &&& 0xFFFFFFFF })
  else if k = 0x804 then .ok (s.withFab (setRoutecfg x f))
  else if k = 0x805 then .ok (s.withFab { f with rtidx := x &&& 0x1FFF })
  else if k = 0x806 then .ok (s.withFab (setRtdat x f))
  else if k = 0x807 then .ok (s.withFab { f with fabcfg := x &&& 0x0000FFFFFFFFFFFF })
  else if k = 0x808 then .ok (s.withFab { f with rwroot := x &&& sysregMask 0x022 })
  else if k = 0x821 then do
    let c ← logWrite x
    .ok (if c then s.withPkg { p with hbm := { p.hbm with ecclog := 0 } } else s)
  else if k = 0x822 then do
    let c ← logWrite x
    .ok (if c then s.withPkg { p with hbm := { p.hbm with linklog := 0 } } else s)
  else if 0x830 ≤ k && k < 0x834 then .ok (s.withPkg (clearHalt (k - 0x830) x p))
  else if k = 0x834 then .ok (s.withPkg (setSctcfg x p))
  else if 0x840 ≤ k && k < 0x850 then .ok (rearm ownDie (lowNibble n) (s.withDisp ownDie (setLwaddr (lowNibble n) x (s.disp ownDie))))
  else if 0x850 ≤ k && k < 0x860 then .ok (rearm ownDie (lowNibble n) (s.withDisp ownDie (setLwenv (lowNibble n) x (s.disp ownDie))))
  else if k = 0x860 then .ok (s.withPkg { p with abortring := mix 0x000FFFFFFFFFF000 p.abortring x })
  else if 0x900 ≤ k && k < 0xA00 then .ok (s.withPkg (clearHealth (n.extractLsb' 0 8) x p))
  else if (pkgReg n s).isSome then trapWith .priv
  else trapWith .illegal

/-- The loop counter that a number names (R97, R409). -/
def lcntOf (n : BitVec 12) : Option (Fin 4) :=
  if n.toNat / 4 = 4 then some ((n.extractLsb' 0 2).toFin) else none

/-- `sys.wr` (R402, R409, R419): a context register a group later, a package register at issue. -/
def execSysWr (g : Fin 16) (a b : Src) (s : State) : Host.Outcome State Fault Refusal :=
  guarded g s (fun s => do
    let (y, x, _, s) ← srcSS a b s
    let n : BitVec 12 := y.extractLsb' 0 12
    match lcntOf n with
    | some c => .ok (sched (.lc c (x.extractLsb' 0 32)) 1 s)
    | none =>
      if firmwareReg n then trapWith .priv
      else if (ctxReg n s).isSome then
        if s.c.id.sup && sysregMask n ≠ 0 then .ok (sched (.sysreg n x) 1 s) else trapWith .priv
      else if (pkgReg n s).isNone then trapWith .illegal
      else if !s.c.id.sup then trapWith .priv
      else do
        let s ← writePkgReg n x s
        .ok (emit s))

/-! ## The same writes from other cores -/

def execEcclogClear (s : State) : Host.Outcome State Fault Refusal :=
  event (s.withPkg { s.pkg with hbm := { s.pkg.hbm with ecclog := 0 } })
def execLinklogClear (s : State) : Host.Outcome State Fault Refusal :=
  event (s.withPkg { s.pkg with hbm := { s.pkg.hbm with linklog := 0 } })
def execHaltmaskClear (k : Fin 4) (v : W64) (s : State) : Host.Outcome State Fault Refusal :=
  event (s.withPkg (clearHalt k v s.pkg))
def execRoutecfgVerWrite (v : Bool) (s : State) : Host.Outcome State Fault Refusal := event (s.withFab (setVer v s.pkg.fab))
def execRoutecfgDropClear (s : State) : Host.Outcome State Fault Refusal := event (s.withFab { s.pkg.fab with drop := 0 })
def execRtdatWrite (v : W64) (s : State) : Host.Outcome State Fault Refusal := event (s.withFab (setRtdat v s.pkg.fab))
def execSctcfgWrite (v : W64) (s : State) : Host.Outcome State Fault Refusal := event (s.withPkg (setSctcfg v s.pkg))
def execLwaddrWrite (n : Fin 16) (v : W64) (s : State) : Host.Outcome State Fault Refusal :=
  event (rearm ownDie n (s.withDisp ownDie (setLwaddr n v (s.disp ownDie))))

end Sys2Proof.Machine
end

