-- ==== Sys2Proof/Machine/Scheduler.lean ====
section
/-! DEFINITION. The dispatchers at work: launch words, readiness, placement, pre-emption, switching out and resuming,
gangs, and streams between tasks (R387 to R401, R407). -/

namespace Sys2Proof.Machine

/-! ## Launch words and readiness (R387, R388) -/

/-- LAUNCH_WORD_WRITE: slot n of both dispatchers is looked at, and its launch is taken up (R387). -/
def execLaunchWordWrite (n : Fin 16) (s : State) : Host.Outcome State Fault Refusal :=
  event (takeLaunch 1 n (takeLaunch 0 n (watchLaunch 1 n (watchLaunch 0 n s))))

/-- The queued tasks that a condition selects are tested (R388). -/
def testTasks (p : Task → Bool) (s : State) : State :=
  s.withPkg { s.pkg with disp := s.pkg.disp.map (fun d =>
    { d with queue := d.queue.map (fun t => if p t then testReady s.pkg t else t) }) }

/-- DEPENDENCE_WORD_WRITE: a write was performed to the sector of an address (R388). -/
def execDependenceWordWrite (pa : Nat) (s : State) : Host.Outcome State Fault Refusal :=
  event (testTasks (fun t => t.deps.any (fun d => d.1 / 128 = pa / 128)) s)

/-- START_TIME_TEST (R388). -/
def execStartTimeTest (s : State) : Host.Outcome State Fault Refusal := event (testTasks (·.timed) s)

/-! ## The save image (R399, R400) -/

/-- Bytes padded with zeros to a length. -/
def padTo (n : Nat) (b : List Byte) : List Byte := b ++ List.replicate (n - b.length) 0

/-- The 128 bytes of a shadow set (log 25). -/
def shadowBytes (h : Shadow) : List Byte :=
  padTo 128 (bytesOf 2 h.stid.toNat ++ bytesOf 2 h.dtid.toNat ++ bytesOf 1 h.ctl.toNat ++ bytesOf 1 h.fm.toNat
    ++ bytesOf 2 h.conv.toNat ++ (h.sc.toList ++ h.dc.toList ++ h.bx.toList).flatMap (fun x => bytesOf 4 x.toNat)
    ++ bytesOf 8 h.fill.toNat)

/-- The context system registers in number order (R409). -/
def sysregList (s : State) : List W64 :=
  ([0, 1, 2, 3, 4, 5, 6, 7, 0x10, 0x11, 0x12, 0x13] ++ span 0x20 11).map (fun n => (ctxReg (BitVec.ofNat 12 n) s).getD 0)

/-- A region of the task's own, and not its stream's. -/
def ownRegion (r : Region) : Bool := r.tid < 1024

/-- The front half, or single copy, of each region at its place in the image: its offset there, and its byte range. -/
def imageRegions : Nat → List Region → List (Nat × Region)
  | _, [] => []
  | o, r :: l => (o, r) :: imageRegions (o + 256 * ceilDiv r.front.2 256) l

/-- The bytes of doublewords, and of a vector. -/
def dwords (l : List W64) : List Byte := l.flatMap (fun x => bytesOf 8 x.toNat)
def vectorBytes (v : VWord) : List Byte := bytesOf 256 v.toNat

/-- The registers of the image between its header and its system registers (R400, log 25): scalars, predicates, the matrix
and loop registers and FMT, the sticky flags, the lane states, the shadow sets. -/
def registerBytes (a : Arch) : List Byte :=
  let preds := (List.range 32).flatMap (fun i => bytesOf 8 (a.p.toList.getD i 0).toNat ++ bytesOf 8 (a.pUni.getLsbD i).toNat)
  let asd : W64 := joinFields [(a.asd.off, 0), (a.asd.pitch, 22), (a.asd.h.toNat, 32)]
  let mid := dwords a.m.toList ++ a.lc.toList.flatMap (fun x => bytesOf 4 x.toNat)
    ++ dwords [a.fmt, asd, a.mxstat] ++ bytesOf 1 a.iprio.toNat
  let stick := (List.range 64).map (fun i => BitVec.ofNat 8 (a.sticky.toNat / 2 ^ (6 * i) % 64))
  dwords a.s.toList ++ preds ++ padTo 256 mid ++ stick ++ vectorBytes a.lanes ++ a.shadow.toList.flatMap shadowBytes

/-- The save image of the running context, as its checkpoint stands (R400, log 25). -/
def saveImage (s : State) : List Byte :=
  let a := s.c.ck
  let t := s.withA a
  let rs := s.c.regions.filter ownRegion
  let header := bytesOf 4 0x53584443 ++ bytesOf 4 1 ++ bytesOf 8 s.c.id.ctxid.toNat
    ++ dwords [a.pc, s.c.phseq] ++ bytesOf 8 rs.length ++ bytesOf 1 s.c.id.grank.toNat ++ bytesOf 1 s.c.id.gsize.toNat ++ bytesOf 1 s.c.id.twin.toNat
    ++ bytesOf 1 s.c.id.dec.toNat
  let table := rs.flatMap (fun r => bytesOf 4 r.tid ++ bytesOf 4 (if r.cb then 2 else 1) ++ bytesOf 4 r.base ++ bytesOf 4 r.size)
  let head := padTo 256 header ++ registerBytes a ++ padTo 192 (dwords (sysregList t)) ++ a.v.toList.flatMap vectorBytes
    ++ padTo 2048 table
  rs.foldl (fun b r =>
    b ++ padTo (256 * ceilDiv r.front.2 256) (getBytes (s.buf r.cb) r.front.1 r.front.2)) head

/-- A device-space range through an environment's PTROOT, by page: physical address and length of each part that
translates, and the fault that stops the rest (R399). The first argument counts pages. -/
def envParts (p : Pkg) (root : W64) : Nat → W64 → Nat → List (Nat × Nat) × Option FaultRec
  | 0, _, _ => ([], none)
  | k + 1, va, n =>
    if n = 0 then ([], none)
    else match walkRoot p.mem root (va.toNat % 2 ^ 48) with
      | .missing pa lv => ([], some ⟨va, 0, 1, pa, lv⟩)
      | .leaf pte log =>
        let m := min n (2 ^ 16 - va.toNat % 2 ^ 16)
        let (l, f) := envParts p root k (va + BitVec.ofNat 64 m) (n - m)
        ((leafPa pte log (va.toNat % 2 ^ 48), m) :: l, f)

/-- The parts of a range of n bytes. -/
def envRange (p : Pkg) (env : Nat) (va : W64) (n : Nat) : List (Nat × Nat) × Option FaultRec :=
  envParts p (envReg p env 0) (n / 2 ^ 16 + 2) va n

/-- The cells of bytes laid over the parts of a range, and the bytes left over. -/
def layOver : List (Nat × Nat) → List Byte → Cells × List Byte
  | [], b => ([], b)
  | (pa, m) :: l, b =>
    let (w, rest) := layOver l (b.drop m)
    (cellsAt pa (b.take m) ++ w, rest)

/-- The modelled core's emergency area (R399, R410). -/
def emergencyBase (p : Pkg) : Nat := bitsOf p.emergbase.toNat 51 16 * 2 ^ 16 + Config.coreId.toNat * Config.saveSize

/-- A context of this identity may be resumed only on the core it left (R401). -/
def Ident.bound (id : Ident) : Bool := id.lease || id.dec || id.strinfo ≠ 0

/-- The running context may be resumed only on the core it left (R322, R401). -/
def boundHere (s : State) : Bool :=
  s.c.id.bound
    || s.pkg.chans.any (fun c => (c.2.owner.map (fun o => decide (o.ctxid = s.c.id.ctxid))).getD false)

/-- The task of a context; one placed from no queued task has the fields its identity holds. -/
def taskOfCtx (c : Ctx) : Task :=
  c.id.task.getD
    { entry := c.id.entry, affinity := 0, args := 0, start := 0, gids := c.id.gids, prio := c.id.prio, twin := c.id.twin, prt := c.id.prt
      timed := false, strm := c.id.strm, link := c.id.link, sup := c.id.sup, stream := c.id.stream, deps := [], env := c.id.ctxenv.toNat
      src := .core Config.coreId, ready := none, req := [] }

/-- SAVE_COMPLETE for the running context (R393, R399): its image is written, from a faulting byte on into the core's
emergency area; its map slots become FREE (R372); its slot is free and it is SAVED, resumable unless a fault holds it, and the
companions of its gang with it (R397). The save waits for no engine: a copy command still queued then reads a typed buffer as it
stands when the command is performed (log 105). -/
def finishSave (s : State) : State :=
  if !s.c.saving || !s.core.emerg.isEmpty then s
  else
    let mates := s.pkg.others.filter (mateOf s)
    let s := dropMaps (fun _ => true) (dropMates s)
    let c := s.c
    let env := c.id.ctxenv.toNat
    let img := saveImage s
    let (parts, fault) := envRange s.pkg env c.id.savebase img.length
    let (w, rest) := layOver parts img
    let done := img.length - rest.length
    let s := writeMem w s
    let s := writeMem (cellsAt (emergencyBase s.pkg + done) rest) s
    let v : Saved :=
      { task := taskOfCtx c, id := c.id, regions := c.regions, core := Config.coreId
        fault := c.frozen <|> fault, since := s.pkg.devtime, bound := boundHere s
        slot := s.slot1, roBound := c.roBound, late := c.late, cpDone := c.cpDone, cpErr := c.cpErr
        words := [], inputs := c.prevInputs, refetch := s.core.xq.filter (fun x => ownCopy s x && x.refetch)
        reruns := c.reruns, phseq := c.phseq, spilled := !rest.isEmpty, req := []
        engCount := c.engCount, mates := mates }
    { s with
      c := Ctx.empty
      core := { s.core with
        xq := s.core.xq.filter (fun x => !(ownCopy s x && x.refetch))
        emerg := rest.mapIdx (fun i b => (done + i, b)) }
      pkg := { s.pkg with saved := s.pkg.saved ++ [v] } }

def execSaveComplete (s : State) : Host.Outcome State Fault Refusal :=
  event (if s.c.saving then finishSave s else inOther finishSave s)

/-- The saved contexts with one replaced. -/
def mapSaved (f : Saved → Saved) (s : State) : State := s.withPkg { s.pkg with saved := s.pkg.saved.map f }

/-- EMERGENCY_AREA_DRAIN (R399): with its pages mapped, the emergency part is copied to SAVEBASE and the context becomes
resumable. A page still missing is serviced next. -/
def drainEmergency (s : State) : State :=
  match s.pkg.saved.find? (fun v => v.spilled && v.fault.isNone) with
  | none => s
  | some v =>
    let start := (s.core.emerg.map Prod.fst).headD 0
    let va := v.id.savebase + BitVec.ofNat 64 start
    match envRange s.pkg v.task.env va s.core.emerg.length with
    | (parts, none) =>
      let s := writeMem (layOver parts (s.core.emerg.map Prod.snd)).1 s
      let s := s.withCore { s.core with emerg := [] }
      mapSaved (fun x => if x.spilled then { x with spilled := false, since := s.pkg.devtime } else x) s
    | (_, some f) => mapSaved (fun x => if x.spilled then { x with fault := some f } else x) s

def execEmergencyAreaDrain (s : State) : Host.Outcome State Fault Refusal := event (drainEmergency s)

/-! ## Restoring (R401) -/

/-- A shadow set from its bytes. -/
def shadowOf (b : List Byte) : Shadow :=
  let f := recNum b
  let v (o : Nat) : Vector W32 4 := Vector.ofFn (fun i => BitVec.ofNat 32 (f (o + 4 * i.val) 4))
  { stid := BitVec.ofNat 10 (f 0 2), sc := v 8, dtid := BitVec.ofNat 10 (f 2 2), dc := v 24, bx := v 40
    conv := BitVec.ofNat 16 (f 6 2), ctl := BitVec.ofNat 6 (f 4 1), fill := BitVec.ofNat 64 (f 56 8), fm := f 5 1 ≠ 0 }

/-- The architectural state that the head of a save image holds (R400). -/
def archOf (b : List Byte) : Arch :=
  let f := recNum b
  let w (o : Nat) : W64 := BitVec.ofNat 64 (f o 8)
  let r (i : Nat) : W64 := w (0x740 + 8 * i)
  let asd := f 0x458 8
  { Arch.zero with
    pc := w 0x10
    s := Vector.ofFn (fun i => w (0x100 + 8 * i.val))
    v := Vector.ofFn (fun i => BitVec.ofNat 2048 (f (0x800 + 256 * i.val) 256))
    p := Vector.ofFn (fun i => w (0x200 + 16 * i.val))
    pUni := BitVec.ofNat 32 ((List.range 32).map (fun i => f (0x208 + 16 * i) 1 % 2 * 2 ^ i)).sum
    m := Vector.ofFn (fun i => w (0x400 + 8 * i.val))
    asd := ⟨bitsOf asd 21 0, bitsOf asd 31 22, asd.testBit 32⟩
    mxstat := w 0x460
    shadow := Vector.ofFn (fun i => shadowOf ((b.drop (0x640 + 128 * i.val)).take 128))
    lc := Vector.ofFn (fun i => BitVec.ofNat 32 (f (0x440 + 4 * i.val) 4))
    fmt := w 0x450
    sticky := BitVec.ofNat 384 ((List.range 64).map (fun i => f (0x500 + i) 1 % 64 * 2 ^ (6 * i))).sum
    lanes := BitVec.ofNat 2048 (f 0x540 256)
    iprio := BitVec.ofNat 3 (f 0x468 1)
    phbudget := r 1
    trcause := r 2
    trmask := r 3
    trpc := r 4
    traddr := r 5
    trvec := r 7
    quota := r 12 &&& sysregMask 0x020
    asid := r 13
    ptroot := r 14
    ptpool := r 15
    pthost := r 16
    pmroot := r 17
    tensbase := r 18
    pmsize := r 19 }

/-- The length of the save image of some regions. -/
def imageLength (rs : List Region) : Nat := 0x3000 + ((rs.filter ownRegion).map (fun r => 256 * ceilDiv r.front.2 256)).sum

/-- The bytes of a saved context's image; none where a page is missing. -/
def readImage (p : Pkg) (v : Saved) : Option (List Byte) :=
  match envRange p v.task.env v.id.savebase (imageLength v.regions) with
  | (parts, none) => some (parts.flatMap (fun x => getBytes p.mem x.1 x.2))
  | (_, some _) => none

/-- Each region's front half, or single copy, is written back, over what an engine has put there since the save (R401,
log 105). -/
def restoreRegions (rs : List Region) (b : List Byte) (k : Core) : Core :=
  (imageRegions 0x3000 (rs.filter ownRegion)).foldl (fun k e =>
    let w := cellsAt e.2.front.1 ((b.drop e.1).take e.2.front.2)
    let k := k.cleanse e.2.cb (inRange e.2.front)
    if e.2.cb then { k with cb := putCells k.cb w } else { k with as := putCells k.as w }) k

/-- The typed buffers as a context finds them that resumes here: where it left another core, its regions are cleared first
(R157, R401). -/
def restoredCore (v : Saved) (b : List Byte) (s : State) : Core :=
  restoreRegions v.regions b
    (if v.core = Config.coreId then s.core else (v.regions.filter ownRegion).foldl clearRegion s.core)

/-- The context that a saved one becomes on the modelled core (R401). -/
def resumedCtx (v : Saved) (b : List Byte) (s : State) : Ctx :=
  let a := archOf b
  let k := restoredCore v b s
  { Ctx.empty with
    live := true
    clearing := v.core ≠ Config.coreId
    engCount := v.engCount
    id := { v.id with task := some v.task }
    a := a
    ck := a
    phseq := v.phseq
    reruns := v.reruns
    prevInputs := v.inputs
    regions := v.regions
    backAs := backCells v.regions false k.as
    backCb := backCells v.regions true k.cb
    roBound := v.roBound
    cpDone := v.cpDone
    cpErr := v.cpErr
    late := v.late }

/-! ## Waiting for a core (R389, R390) -/

/-- What waits for a core: a resumable context, or a READY task of a dispatcher's queue. -/
inductive Claim where
  | saved (i : Nat)
  | task (i : Nat)
deriving DecidableEq, Repr

/-- The die of a core. -/
def dieOfCore (c : BitVec 8) : Fin 2 := if c.toNat < 128 then 0 else 1

/-- A saved context may be resumed (R393). -/
def resumable (v : Saved) : Bool := v.fault.isNone && !v.spilled

/-- The claims of a dispatcher with the place of each in its order of service: effective priority, contexts before tasks,
the distance of the source (R389). -/
def claims (s : State) (die : Fin 2) : List (Claim × Nat × Nat × Nat) :=
  let d := s.disp die
  let now := s.pkg.devtime
  let away := (s.pkg.saved.mapIdx (fun i v => (i, v))).filter (fun x => resumable x.2 && dieOfCore x.2.core = die)
  let ready := (d.queue.mapIdx (fun i t => (i, t))).filterMap (fun x => x.2.ready.map (fun r => (x.1, x.2, r)))
  away.map (fun x => (.saved x.1, effPrio x.2.id.prio x.2.since now, 0, 0)) ++ ready.map (fun x =>
    let ep := effPrio x.2.1.prio x.2.2 now
    (.task x.1, ep, 1, rrDist (d.rr.toList.getD ep 0) x.2.1.src))

/-- A claim served before another. -/
def servedBefore (x y : Claim × Nat × Nat × Nat) : Bool :=
  if x.2.1 ≠ y.2.1 then y.2.1 < x.2.1
  else if x.2.2.1 ≠ y.2.2.1 then x.2.2.1 < y.2.2.1
  else x.2.2.2 < y.2.2.2

def insertClaim (x : Claim × Nat × Nat × Nat) : List (Claim × Nat × Nat × Nat) → List (Claim × Nat × Nat × Nat)
  | [] => [x]
  | y :: r => if servedBefore x y then x :: y :: r else y :: insertClaim x r

/-- The claims in the order of service (R389). -/
def claimOrder (s : State) (die : Fin 2) : List (Claim × Nat) :=
  ((claims s die).foldl (fun l x => insertClaim x l) []).map (fun x => (x.1, x.2.1))

/-- The tasks of a queue that go and those that stay, where at most a number may go. -/
def splitQueue (away : Task → Bool) : Nat → List Task → List Task × List Task
  | _, [] => ([], [])
  | 0, l => ([], l)
  | n + 1, t :: l =>
    if away t then
      let (a, b) := splitQueue away n l
      (t :: a, b)
    else
      let (a, b) := splitQueue away (n + 1) l
      (a, t :: b)

/-- A task is handed to the dispatcher of its stack's die, while that one's queue has room (R389, R390). -/
def handOver (s : State) : State :=
  let split (d o : Fin 2) := splitQueue (fun t => dieOf s.pkg d t ≠ d) (65536 - (s.disp o).queue.length) (s.disp d).queue
  let (a0, k0) := split 0 1
  let (a1, k1) := split 1 0
  let w := k0 ++ a1
  let e := k1 ++ a0
  let s := s.withDisp 0 { s.disp 0 with queue := w }
  s.withDisp 1 { s.disp 1 with queue := e }

/-- The regions that a task will hold; one whose table is malformed holds none (R154). -/
def taskRegions (p : Pkg) (t : Task) : List Region :=
  let (rs, bad) := readRegions p t.env
  if !bad && regionsOk p t.strm rs then rs else []

/-- A saved context of the core holds the core's link lease (R298). -/
def leaseAway (p : Pkg) (core : BitVec 8) : Bool := p.saved.any (fun v => v.core = core && v.id.lease)

/-- A context of the stream is resident or saved (R389). -/
def streamBusy (s : State) (id : BitVec 12) : Bool :=
  let on (c : Ctx) : Bool := c.live && c.id.strm && c.id.stream = id
  on s.c || on s.c2 || s.pkg.saved.any (fun v => v.id.strm && v.id.stream = id)
    || s.pkg.others.any (fun o => o.task.strm && o.task.stream = id)

/-- The cores to which a task may go for its stream's sake: none while the stream is not to be bound, its stream's core, or
any; an earlier task of the stream goes first (R389, R390, R407). -/
def streamCores (s : State) (t : Task) (earlier : List Task) (l : List (BitVec 8)) : List (BitVec 8) :=
  if !t.strm then l
  else if streamBusy s t.stream || earlier.any (fun u => u.strm && u.stream = t.stream) then []
  else match look s.pkg.streams t.stream.toNat with
    | none => l
    | some e => if e.state = .resident then [e.core] else []

/-- The cores that a claim could use if they were free (R390, R401). -/
def wanted (s : State) (die : Fin 2) : Claim → List (BitVec 8)
  | .saved i => match s.pkg.saved[i]? with
    | none => []
    | some v => if v.bound then [v.core] else nearCores s.pkg die (envReg s.pkg v.task.env 0) v.task.affinity
  | .task i =>
    let q := (s.disp die).queue
    match q[i]? with
    | none => []
    | some t => streamCores s t (q.take i) (nearCores s.pkg die (envReg s.pkg t.env 0) t.affinity)

/-- What a claim brings: its regions, whether it takes the link lease, whether it is a twin task. -/
def brings (s : State) (die : Fin 2) : Claim → List Region × Bool × Bool
  | .saved i => match s.pkg.saved[i]? with
    | none => ([], false, false)
    | some v => (v.regions, false, false)
  | .task i => match (s.disp die).queue[i]? with
    | none => ([], false, false)
    | some t => (taskRegions s.pkg t, t.link, t.twin)

/-- The candidate cores of a claim (R390). -/
def candidates (s : State) (die : Fin 2) (k : Claim) : List (BitVec 8) :=
  let (rs, link, _) := brings s die k
  (wanted s die k).filter (fun c => coreFree s link false rs c && !(link && leaseAway s.pkg c))

/-- The context slot b of a core is free. -/
def slotFree (s : State) (core : BitVec 8) (b : Bool) : Bool := !(residents s core).any (fun r => r.slot1 = b)

/-- The core of an aligned pair, its slot, for a twin task (R391): both members are candidates with the same slot free, and
at most one is in the cullet. -/
def twinPair (s : State) (die : Fin 2) (k : Claim) : Option (BitVec 8 × Bool) :=
  let (rs, _, _) := brings s die k
  let ok (c : BitVec 8) : Bool := (wanted s die k).contains c && coreFree s false true rs c
  let pairs := (wanted s die k).filter (fun c =>
    c.toNat % 2 = 0 && ok c && ok (c + 1) && !(s.pkg.cullet.contains c && s.pkg.cullet.contains (c + 1))
      && (slotFree s c false && slotFree s (c + 1) false || slotFree s c true && slotFree s (c + 1) true))
  let load (c : BitVec 8) : Nat := (residents s c).length + (residents s (c + 1)).length
  (pairs.foldl (fun b c => match b with
    | none => some c
    | some d => if load c < load d then some c else some d) none).map (fun c =>
      (c, !(slotFree s c false && slotFree s (c + 1) false)))

/-! ## The cores of a gang (R397) -/

/-- The aligned sets of n cores, first the one that holds a core. -/
def gangSets (n : Nat) (core : BitVec 8) : List (List (BitVec 8)) :=
  let sets := (List.range (256 / n)).map (fun k => (span (n * k) n).map (BitVec.ofNat 8))
  sets.filter (fun l => l.contains core) ++ sets.filter (fun l => !l.contains core)

/-- The saved leader of a gang that a claim is of. -/
def gangOf (s : State) : Claim → Option Saved
  | .saved i => (s.pkg.saved[i]?).filter (fun v => v.id.gsize ≠ 0)
  | .task _ => none

/-- A set of cores may take the gang of a claim: its leader goes to one that it wants, or is bound to, and every core has room
for the gang's regions and the leader's slot free; of a twin's at most one is in the cullet (R391, R397, R401). -/
def gangFits (s : State) (die : Fin 2) (k : Claim) (v : Saved) (l : List (BitVec 8)) : Bool :=
  (if v.bound then l.head? = some v.core else l.all (fun c => (wanted s die k).contains c))
    && l.all (fun c => coreFree s v.id.lease v.id.twin v.regions c && slotFree s c v.slot)
    && !(v.id.twin && l.all (fun c => s.pkg.cullet.contains c))

/-- The set of cores that the gang of a claim resumes on: the one that it left where that is free, else the lowest (log 60). -/
def gangPlace (s : State) (die : Fin 2) (k : Claim) (v : Saved) : Option (List (BitVec 8)) :=
  (gangSets (gangCores v.id.gsize) v.core).find? (gangFits s die k v)

/-- Where a claim goes (R390, R391, R397, R401): its cores, the leader's first, and their slot; a saved context prefers the core
it left. -/
def placeFor (s : State) (die : Fin 2) (k : Claim) : Option (List (BitVec 8) × Bool) :=
  if (brings s die k).2.2 then (twinPair s die k).map (fun x => ([x.1, x.1 + 1], x.2))
  else match gangOf s k with
    | some v => (gangPlace s die k v).map (fun l => (l, v.slot))
    | none =>
      let l := candidates s die k
      let left := match k with
        | .saved i => (s.pkg.saved[i]?).bind (fun v => if l.contains v.core then some v.core else none)
        | .task _ => none
      (left <|> bestCore s l).map (fun c => ([c], freeSlot s c))

/-! ## Pre-emption requests (R392) -/

/-- The resident context of a core's slot gets or loses a request. -/
def setPreempt (core : BitVec 8) (slot1 on : Bool) (s : State) : State :=
  if core = Config.coreId then
    if slot1 = s.slot1 then s.withC { s.c with preempt := on && s.c.live }
    else inOther (fun s => s.withC { s.c with preempt := on && s.c.live }) s
  else s.withPkg { s.pkg with
    others := s.pkg.others.map (fun o => if o.core = core && o.slot = slot1 then { o with preempt := on } else o) }

/-- The requests of a claim: one, or for a gang those on each of its cores (R392, R397). -/
def requestsOf (s : State) (die : Fin 2) : Claim → List (BitVec 8 × Bool)
  | .saved i => ((s.pkg.saved[i]?).map (·.req)).getD []
  | .task i => (((s.disp die).queue[i]?).map (·.req)).getD []

/-- A claim's requests are recorded. -/
def setRequests (die : Fin 2) (k : Claim) (r : List (BitVec 8 × Bool)) (s : State) : State :=
  match k with
  | .saved i => match s.pkg.saved[i]? with
    | some v => setSaved i { v with req := r } s
    | none => s
  | .task i =>
    let d := s.disp die
    match d.queue[i]? with
    | some t => s.withDisp die { d with queue := setAt d.queue i { t with req := r } }
    | none => s

/-- The request still stands with its context. -/
def requestStands (s : State) (r : BitVec 8 × Bool) : Bool :=
  (residents s r.1).any (fun x => x.slot1 = r.2 && x.preempt)

/-- The resident contexts of some cores: core, slot, IPRIO. -/
def requestable (s : State) (l : List (BitVec 8)) : List (BitVec 8 × Bool × Nat) :=
  l.flatMap (fun c => (residents s c).map (fun r => (c, r.slot1, r.iprio.toNat)))

/-- The context of lowest IPRIO, the lowest core id and then context 0 among equals (R392). -/
def lowestOf (l : List (BitVec 8 × Bool × Nat)) : Option (BitVec 8 × Bool × Nat) :=
  l.foldl (fun b x => match b with
    | none => some x
    | some y =>
      if x.2.2 < y.2.2 || (x.2.2 = y.2.2 && (x.1.toNat < y.1.toNat || (x.1 = y.1 && y.2.1 && !x.2.1))) then some x else some y) none

/-- The cores in service for a claim. -/
def inService (p : Pkg) (c : BitVec 8) : Bool := !p.retired.contains c && !halted p c && !p.cullet.contains c

/-- Whom a claim of effective priority e asks to leave: of its cores' contexts the one of the lowest IPRIO; a gang, those in its
slot on the set of cores that it left; each of them with an IPRIO below e (R392, R397, log 60). -/
def whomToAsk (s : State) (die : Fin 2) (k : Claim) (e : Nat) : List (BitVec 8 × Bool) :=
  match gangOf s k with
  | some v => ((gangSets (gangCores v.id.gsize) v.core).headD []).filterMap (fun c =>
      if (residents s c).any (fun r => r.slot1 = v.slot && r.iprio.toNat < e) then some (c, v.slot) else none)
  | none => match lowestOf (requestable s ((wanted s die k).filter (inService s.pkg))) with
    | some (c, b, q) => if q < e then [(c, b)] else []
    | none => []

/-- A claim of effective priority e that finds no candidate requests a pre-emption, unless one of its requests stands (R392). -/
def raiseRequest (die : Fin 2) (k : Claim) (e : Nat) (s : State) : State :=
  if (requestsOf s die k).any (requestStands s) || (placeFor s die k).isSome then s
  else
    let l := whomToAsk s die k e
    setRequests die k l (l.foldl (fun s r => setPreempt r.1 r.2 true s) s)

/-- Every claim without a candidate raises its request. -/
def raiseRequests (s : State) : State :=
  ([0, 1] : List (Fin 2)).foldl (fun s d => (claimOrder s d).foldl (fun s k => raiseRequest d k.1 k.2 s) s) s

/-- The requests that claims hold. -/
def requestsHeld (s : State) : List (BitVec 8 × Bool) :=
  s.pkg.saved.flatMap (·.req) ++ s.pkg.disp.toList.flatMap (fun d => d.queue.flatMap (·.req))

/-- The requests of a claim that has been placed on other cores are withdrawn, unless another claim has made them too; a
switch-out that has begun completes (R392). -/
def withdraw (r : List (BitVec 8 × Bool)) (cores : List (BitVec 8)) (s : State) : State :=
  r.foldl (fun s x => if cores.contains x.1 || (requestsHeld s).contains x then s else setPreempt x.1 x.2 false s) s

/-- PRIORITY_AGEING: effective priorities have risen, and requests may now be due (R389, R392). -/
def execPriorityAgeing (s : State) : Host.Outcome State Fault Refusal := event (raiseRequests s)

/-! ## Placing (R390 to R393, R401) -/

/-- The context of a saved record joins the contexts of another core, with the IPRIO of its image. -/
def moveAway (v : Saved) (iprio : BitVec 3) (core : BitVec 8) (slot1 : Bool) (s : State) : State :=
  s.withPkg { s.pkg with
    others := s.pkg.others
      ++ [⟨core, slot1, v.id.ctxid, iprio, false, v.regions, v.task, some v.id.savebase.toNat, v.id, none⟩] }

/-- The context of the modelled core in a slot, changed. -/
def onSlot (slot1 : Bool) (f : State → State) (s : State) : State := if slot1 = s.slot1 then f s else inOther f s

/-- What waited for a switched-out context happens as it resumes: its refetches go on, and its completion words are written, of
phases that no rollback reverts (R218, R219). -/
def catchUp (v : Saved) (s : State) : State :=
  let own : Owner := { ownerOf s with phseq := s.c.phseq - 1 }
  let s := s.withCore { s.core with xq := v.refetch ++ s.core.xq }
  v.words.foldl (fun s w => putWord own w s) s

/-- Saved context i resumes (R401); where a page of its image is missing, the MMP services it first. -/
def resume (i : Nat) (core : BitVec 8) (slot1 : Bool) (s : State) : State :=
  match s.pkg.saved[i]? with
  | none => s
  | some v =>
    match readImage s.pkg v with
    | none => setSaved i { v with fault := (envRange s.pkg v.task.env v.id.savebase (imageLength v.regions)).2 } s
    | some b =>
      let s := s.withPkg { s.pkg with saved := s.pkg.saved.eraseIdx i }
      if core = Config.coreId then
        let c := resumedCtx v b s
        onSlot slot1 (catchUp v) (fillSlot slot1 c (s.withCore (restoredCore v b s)))
      else moveAway v (archOf b).iprio core slot1 s

/-- The identity of the member of a gang of n cores that runs on a core (R397). -/
def asMember (n : Nat) (twin : Bool) (core : BitVec 8) (id : Ident) : Ident :=
  { id with gsize := if n = 4 then 2 else 1, grank := BitVec.ofNat 2 (core.toNat % n), twin := twin }

/-- A companion context on another core: a copy of its leader, with its IPRIO, under its own CTXID (R397). -/
def addCompanion (n : Nat) (t : Task) (leader : Ident) (iprio : BitVec 3) (rs : List Region) (slot1 : Bool) (core : BitVec 8)
    (s : State) : State :=
  let p := s.pkg
  let ctxid := BitVec.ofNat 32 p.nextCtx
  let id := { asMember n leader.twin core leader with ctxid := ctxid }
  s.withPkg { p with
    nextCtx := p.nextCtx + 1
    others := p.others ++ [⟨core, slot1, ctxid, iprio, false, rs, t, none, id, some leader.ctxid⟩] }

/-- The identity of a context, here or on another core, changed. -/
def onIdent (ctx : W32) (f : Ident → Ident) (s : State) : State :=
  let at_ (c : Ctx) : Ctx := if c.live && c.id.ctxid = ctx then { c with id := f c.id } else c
  let s := { s with c := at_ s.c, c2 := at_ s.c2 }
  s.withPkg { s.pkg with others := s.pkg.others.map (fun o => if o.ctxid = ctx then { o with id := f o.id } else o) }

/-- A twin task starts on a pair (R391, R397). -/
def startTwin (t : Task) (core : BitVec 8) (slot1 : Bool) (area : Nat) (s : State) : State :=
  let id := asMember 2 true core (startId s.pkg t area)
  let rs := startRegions s.pkg t
  let s := onIdent id.ctxid (asMember 2 true core) (startTask t core slot1 area s)
  addCompanion 2 t id t.prio rs slot1 (core + 1) s

/-- A gang resumes on a set of cores: its leader on the first, with a companion on each of the others, the ones that left with it
or, where it forms, new ones. A missing page of its image is served first (R397, R401). -/
def resumeGang (i : Nat) (l : List (BitVec 8)) (s : State) : State :=
  match l, s.pkg.saved[i]? with
  | c :: r, some v =>
    match readImage s.pkg v with
    | none => resume i c v.slot s
    | some b =>
      let s := onIdent v.id.ctxid (asMember l.length v.id.twin c) (resume i c v.slot s)
      if v.mates.isEmpty then
        r.foldl (fun s c => addCompanion l.length v.task v.id (archOf b).iprio v.regions v.slot c s) s
      else
        s.withPkg { s.pkg with others := s.pkg.others ++ (v.mates.zip r).map (fun x => { x.1 with core := x.2, slot := v.slot }) }
  | _, _ => s

/-- Task i of a queue is placed: it leaves the queue, and its level's position moves past its source (R389). -/
def placeTask (die : Fin 2) (i e : Nat) (cores : List (BitVec 8)) (slot1 : Bool) (s : State) : State :=
  let core := cores.headD 0
  let d := s.disp die
  match d.queue[i]? with
  | none => s
  | some t =>
    match freeArea s.pkg t.env with
    | none => s
    | some area =>
      let d := { d with
        queue := d.queue.eraseIdx i
        rr := d.rr.mapIdx (fun l p => if l = e then (srcIndex t.src + 1) % 272 else p) }
      let s := withdraw t.req cores (s.withDisp die d)
      if t.twin then startTwin t core slot1 area s else startTask t core slot1 area s

/-- The claim can be placed now: it has a core, and, for a task, a save area. -/
def placeable (s : State) (die : Fin 2) (k : Claim) : Bool :=
  (placeFor s die k).isSome && match k with
    | .saved _ => true
    | .task i => (((s.disp die).queue[i]?).bind (fun t => freeArea s.pkg t.env)).isSome

/-- A claim is placed on its cores. -/
def placeClaim (die : Fin 2) (k : Claim) (e : Nat) (l : List (BitVec 8)) (slot1 : Bool) (s : State) : State :=
  match k with
  | .saved i =>
    let t := if (gangOf s k).isSome then resumeGang i l s else resume i (l.headD 0) slot1 s
    withdraw (requestsOf s die k) l t
  | .task i => placeTask die i e l slot1 s

/-- A dispatcher places the first claim that it can (R389, R390); the flag says whether there was one. -/
def placeOne (die : Fin 2) (s : State) : State × Bool :=
  match (claimOrder s die).find? (fun k => placeable s die k.1) with
  | none => (s, false)
  | some (k, e) =>
    match placeFor s die k with
    | none => (s, false)
    | some (l, slot1) => (placeClaim die k e l slot1 s, true)

/-! ## Streams between tasks (R407) -/

/-- The candidate cores for the page of a stream's HOME, to the dispatcher of a die (R390). -/
def homeCores (st : Stream) (die : Fin 2) : List (BitVec 8) :=
  let pa := st.home.headD 0
  (if pa / 2 ^ 48 = 0 then span (32 * bitsOf pa 38 36) 32 else span (128 * die.val) 128).map (BitVec.ofNat 8)

/-- The first READY task of a stream, with the die whose dispatcher queues it. -/
def readyOf (s : State) (id : Nat) : Option (Fin 2 × Task) :=
  ([0, 1] : List (Fin 2)).findSome? (fun d =>
    ((s.disp d).queue.find? (fun t => t.ready.isSome && t.strm && t.stream.toNat = id)).map (fun t => (d, t)))

/-- An EVICTED stream with a READY task is loaded on a core that could take the task and has room in its stream area (R390,
R407). -/
def startStreamLoad (id : Nat) (st : Stream) (s : State) : State :=
  match if st.state = .evicted then readyOf s id else none with
  | none => s
  | some (die, t) =>
    let room (c : BitVec 8) : Option Nat := streamRoom s.pkg c (512 * st.half)
    let l := (homeCores st die).filter (fun c => coreFree s t.link false (taskRegions s.pkg t) c
      && !(t.link && leaseAway s.pkg c) && (room c).isSome)
    match bestCore s l with
    | none => s
    | some c =>
      s.withPkg { s.pkg with
        streams := put s.pkg.streams id { st with state := .loading, core := c, off := (room c).getD 0, flip := false } }

def startStreamLoads (s : State) : State := s.pkg.streams.foldl (fun s e => startStreamLoad e.1 e.2 s) s

/-- The front half of a stream in AS. -/
def streamFront (id : BitVec 12) (st : Stream) : Nat × Nat := (streamRegion id st).front

/-- STREAM_IDLE_EXPIRY (R407). -/
def streamExpires (id : BitVec 12) (s : State) : State :=
  match look s.pkg.streams id.toNat with
  | none => s
  | some st =>
    if st.state = .resident && st.idle ≠ 0 && st.idle.toNat * 1000 ≤ (s.pkg.devtime - st.last).toNat then
      s.withPkg { s.pkg with streams := put s.pkg.streams id.toNat { st with state := .evicting } }
    else s

def execStreamIdleExpiry (id : BitVec 12) (s : State) : Host.Outcome State Fault Refusal := event (streamExpires id s)

/-- STREAM_EVICTION_COMPLETE (R407): the front half is at HOME; what another core's half held is not known (log 1). -/
def streamEvicted (id : BitVec 12) (s : State) : State :=
  match look s.pkg.streams id.toNat with
  | none => s
  | some st =>
    if st.state ≠ .evicting then s
    else
      let r := streamFront id st
      let bytes := if st.core = Config.coreId then getBytes s.core.as r.1 r.2 else (List.range r.2).map (Config.freeByte s.tick)
      let s := writeMem (homeCells st bytes) s
      s.withPkg { s.pkg with streams := put s.pkg.streams id.toNat { st with state := .evicted } }

def execStreamEvictionComplete (id : BitVec 12) (s : State) : Host.Outcome State Fault Refusal := event (streamEvicted id s)

/-- STREAM_LOAD_COMPLETE (R407). -/
def streamLoaded (id : BitVec 12) (s : State) : State :=
  match look s.pkg.streams id.toNat with
  | none => s
  | some st =>
    if st.state ≠ .loading then s
    else
      let r := streamFront id st
      let bytes := (List.range r.2).map (fun i => getByte s.pkg.mem (st.home.getD (i / 2 ^ 16) 0 + i % 2 ^ 16))
      let s := if st.core = Config.coreId then writeBuf false (cellsAt r.1 bytes) s else s
      s.withPkg { s.pkg with streams := put s.pkg.streams id.toNat { st with state := .resident, last := s.pkg.devtime } }

def execStreamLoadComplete (id : BitVec 12) (s : State) : Host.Outcome State Fault Refusal := event (streamLoaded id s)

/-! ## Contexts of other cores -/

/-- A context of another core has ended, and the companions of its gang with it: its save area is free and its stream is RESIDENT
(R397, R407, R413). -/
def otherEnds (o : OtherCtx) (s : State) : State :=
  s.withPkg { s.pkg with
    others := s.pkg.others.filter (fun x => x ≠ o && x.lead ≠ some o.ctxid)
    areas := s.pkg.areas.filter (fun a => some a ≠ o.area.map (fun b => (o.task.env, b)))
    streams := streamsAtEnd o.ctxid o.regions s.pkg.devtime s.pkg.streams }

/-- A context of another core has been switched out, and the companions of its gang with it (R393, R397, R399): what its image
and its counts hold is not known. A page of its save area that is missing holds it until the MMP has served it. -/
def otherSaved (o : OtherCtx) (area : Nat) (s : State) : State :=
  let (parts, fault) := envRange s.pkg o.task.env (BitVec.ofNat 64 area) (imageLength o.regions)
  let free (i : Nat) : W64 := Config.freeWord (s.tick + i)
  let w := (layOver parts ((List.range (imageLength o.regions)).map (Config.freeByte s.tick))).1
  let v : Saved :=
    { task := o.task, id := { o.id with savebase := BitVec.ofNat 64 area }, regions := o.regions, core := o.core, fault := fault
      since := s.pkg.devtime, bound := o.id.bound, slot := o.slot, roBound := s.pkg.hist.length, late := []
      cpDone := Vector.ofFn (fun e => loW (free e.val)), cpErr := 0, words := [], inputs := [], refetch := [], reruns := 0
      phseq := free 2, spilled := false, req := [], engCount := 0, mates := s.pkg.others.filter (fun x => x.lead = some o.ctxid) }
  let s := writeMem w s
  s.withPkg { s.pkg with
    others := s.pkg.others.filter (fun x => x ≠ o && x.lead ≠ some o.ctxid)
    saved := s.pkg.saved ++ [v] }

/-- A context of another core leaves it (R392, R393, log 60): switched out, where a pre-emption request asked it to and it has a
save area, or because it ends. -/
def otherLeaves (o : OtherCtx) (s : State) : State :=
  match if o.preempt && Config.switchesOut s.tick o.ctxid then o.area else none with
  | some area => otherSaved o area s
  | none => otherEnds o s

/-- Those that have left by now; the companions of a gang leave with its leader (R397). -/
def othersLeave (s : State) : State :=
  (s.pkg.others.filter (fun o => o.lead.isNone && Config.leaves s.tick o.ctxid)).foldl (fun s o => otherLeaves o s) s

/-! ## TASK_PLACEMENT -/

/-- The dispatchers at work once: tasks reach their die, evicted streams that are asked for start to load, each dispatcher
places what it can serve first, and claims that find no core raise requests. -/
def dispatch (s : State) : State :=
  let s := startStreamLoads (handOver s)
  raiseRequests (placeOne 1 (placeOne 0 s).1).1

def execTaskPlacement (s : State) : Host.Outcome State Fault Refusal := event (dispatch s)

/-! ## The merge stage (R395) -/

/-- STARVE_COUNT_EXPIRY: the secondary is primary for one group. -/
def execStarveCountExpiry (s : State) : Host.Outcome State Fault Refusal :=
  event (if s.c.live && s.c2.live then s.withCore { s.core with starve := 0, boost := true } else s)

/-! ## Gangs (R397, R398) -/

/-- A dispatcher places the first gang that can be placed (R397). -/
def placeGang (die : Fin 2) (s : State) : State :=
  match (claimOrder s die).find? (fun k => (gangOf s k.1).isSome && placeable s die k.1) with
  | none => s
  | some (k, e) => match placeFor s die k with
    | some (l, slot1) => placeClaim die k e l slot1 s
    | none => s

/-- A gang whose leader has been saved resumes on an aligned set of cores of one grove, the set that it left where that is
free; until one is, the contexts in its slot there are asked to leave (R392, R397). -/
def formGang (s : State) : State := raiseRequests (placeGang 1 (placeGang 0 s))

def execGangForm (s : State) : Host.Outcome State Fault Refusal := event (formGang s)

/-- A context of another core, or one that has been switched out, has not ended. -/
def stillThere (s : State) (ctx : W32) : Bool :=
  s.pkg.others.any (fun o => o.ctxid = ctx) || s.pkg.saved.any (fun v => v.id.ctxid = ctx)

/-- GANG_REJOIN (R398): every former member has set its bit, this one among them. The gang re-forms where no former member has
ended and all `rejoin` groups lie at one address, which the other cores tell (log 14); otherwise the member traps FUSE. -/
def rejoinGang (s : State) : State :=
  match s.pkg.rejoin with
  | none => s
  | some line =>
    if !(s.c.id.dec && s.c.waits.contains .rejoin && line.bits.contains Config.coreId) then s
    else
      let s := s.withPkg { s.pkg with rejoin := none }
      let n := line.members.length
      let waits := s.c.waits.filter (fun w => w ≠ .rejoin)
      let joined (core : BitVec 8) (id : Ident) : Ident := { asMember n false core id with dec := false }
      let id := joined Config.coreId s.c.id
      if line.mates.all (stillThere s) && Config.companion s.tick then
        let s := s.withPkg { s.pkg with others := s.pkg.others.map (fun o =>
          if line.mates.contains o.ctxid then { o with lead := some s.c.id.ctxid, id := joined o.core o.id } else o) }
        s.withC { s.c with id := id, waits := waits }
      else s.withC { s.c with id := id, waits := waits, late := s.c.late ++ [⟨.fuse, freeAddr s, false⟩] }

def execGangRejoin (s : State) : Host.Outcome State Fault Refusal :=
  event (if s.c.waits.contains .rejoin then rejoinGang s else inOther rejoinGang s)

end Sys2Proof.Machine
end

