-- ==== Sys2Proof/Machine/Device.lean ====
section
/-! DEFINITION. The device around the cores: HBM transfers and their logs, repair in service, boot, the key store unit,
attestation and the clock (R420 to R435). -/

namespace Sys2Proof.Machine

/-! ## HBM (R431 to R433) -/

/-- HBM_WORD_TRANSFER (R432): from now on the word's cells and its next transfers are as the event says; where it says so, the
word is read at once. Nothing happens beyond HBM. -/
def execHbmWordTransfer (x : HbmXfer) (s : State) : Host.Outcome State Fault Refusal :=
  event (if 2 ^ 39 ≤ x.pa then s
    else
      let s := s.withHbm (strike x s.pkg.hbm)
      if x.now then unfetch [x.pa] (readWord (x.pa / 64) s) else s)

/-- LANE_SWAP_COMPLETE (R433). -/
def execLaneSwapComplete (stack : Fin 8) (chan : Fin 32) (s : State) : Host.Outcome State Fault Refusal :=
  event (swapDone stack.val chan.val s)

/-! ## Repair on request (R425) -/

/-- A link is retrained by the supervisor (R296). -/
def retrainLink (l : LinkNo) (s : State) : State :=
  let k := s.pkg.links[l]
  match k.state with
  | .up | .degraded => setLink l { k with state := .retrain, lanes := 0, streak := 0 } s
  | .failed => setLink l { k with state := .training, streak := 0 } s
  | .off | .training | .retrain => s

/-- A lane of a link is swapped by the supervisor: an UP link retrains (R296). -/
def swapLinkLane (l : LinkNo) (s : State) : State :=
  let k := s.pkg.links[l]
  if k.state = .up then setLink l { k with state := .retrain, lanes := 0, streak := 0 } s else s

/-- A pool address is homed on a port (R165). -/
def homedOn (port : Fin 2) (pa : Nat) : Bool := pa / 2 ^ 48 = 2 && bitsOf pa 47 30 % 2 = port.val

/-- The orphaned lines of a severed port are discarded (R165): which lines were dirty is not known, so the bytes written
there are free. -/
def discardOrphans (port : Fin 2) (s : State) : State :=
  if s.pkg.poolUp[port] then s
  else
    let l := ((s.pkg.mem ++ s.pkg.hist.flatten).map Prod.fst).filter (homedOn port)
    s.withPkg { s.pkg with mem := putCells s.pkg.mem (l.map (fun a => (a, Config.freeByte s.tick a))) }

/-- What the MMP service interface does (R425). -/
def serve (r : MmpService) (s : State) : State :=
  let h := s.pkg.hbm
  match r with
  | .retrainLink l => retrainLink l s
  | .retrainPool p => if s.pkg.poolUp[p] then s else s.withPkg { s.pkg with poolTries := s.pkg.poolTries.set p 0 }
  | .retrainHost => if s.pkg.hostUp then s else s.withPkg { s.pkg with hostTries := 0 }
  | .swapLane k l =>
    if laneInUse h k.val l.val && spareFree h k.val (l.val / 64) then s.withHbm { h with swapping := h.swapping ++ [(k.val, l.val)] } else s
  | .swapLinkLane l => swapLinkLane l s
  | .discardOrphans p => discardOrphans p s
  | .registerPager env asid space lo hi queue slots launch word =>
    if slots = 0 then s
    else s.withPkg { s.pkg with pagers := s.pkg.pagers ++ [⟨env, asid, space.val, lo, hi, queue, slots, 0, launch, word⟩] }
  | .retireCore c => s.withPkg (retireCore c s.pkg)
  | .quarantineCore c => s.withPkg (joinCullet c s.pkg)
  | .narrowCore c v u => s.withPkg (narrowTo c v (1 - u) s.pkg)
  | .retirePc k q => s.withHbm (retirePc (64 * k.val + q.val) h)

/-- MMP_SERVICE_REQUEST (R425). -/
def execMmpServiceRequest (r : MmpService) (s : State) : Host.Outcome State Fault Refusal := event (serve r s)

/-- LINK_PARTNER_LOST: eight successive replays fail and the link retrains (R296). -/
def execLinkPartnerLost (l : LinkNo) (s : State) : Host.Outcome State Fault Refusal :=
  let k := s.pkg.links[l]
  event (if linkCarries s.pkg l then
      setLink l { k with state := .retrain, lanes := 0, streak := 0, replay := if k.replay < 0xFFF7 then k.replay + 8 else 0xFFFF } s
    else s)

/-- POOL_BACK_INVALIDATION: the 256-byte line of a pool address is invalidated, which no write is, but which a watching
residency counts as one (R153, R271). -/
def execPoolBackInvalidation (pa : Nat) (s : State) : Host.Outcome State Fault Refusal :=
  event (if pa / 2 ^ 48 = 2 then s.withCore (watchAll ((span (alignDown pa 256) 256).map (fun a => (a, 0))) s.core) else s)

/-! ## The key store unit and alarms (R427) -/

/-- HALT: every core stops, with no commit, and the package is held in reset. -/
def haltAll (s : State) : State := s.withPkg { s.pkg with inReset := true }

/-- The entry of an alarm in the MMP log: 32 bytes in the form of an abort record, of which only bytes 6 and 7 are stated for
what no context did (R394, R427, log 62). -/
def alarmRecord (s : State) : List Byte := (List.range 32).map (fun i => if i = 6 || i = 7 then 0 else Config.freeByte s.tick i)

/-- An alarm fires: its policy acts. -/
def alarm (i : Fin 4) (s : State) : State :=
  let k := s.pkg.ksu
  match k.policy[i] with
  | .log => s.withPkg { s.pkg with ksu := { k with log := k.log ++ [alarmRecord s] } }
  | .halt => haltAll s
  | .erase => haltAll (s.withPkg { s.pkg with ksu := { k with idKey := false, attKey := false } })

def execVoltageAlarm (s : State) : Host.Outcome State Fault Refusal := event (alarm 0 s)
def execClockAlarm (s : State) : Host.Outcome State Fault Refusal := event (alarm 1 s)
def execTemperatureAlarm (s : State) : Host.Outcome State Fault Refusal := event (alarm 2 s)
def execLidMeshAlarm (s : State) : Host.Outcome State Fault Refusal := event (alarm 3 s)

/-! ## The boot record and attestation (R424, R428, R429) -/

/-- The 64 bytes of the boot record. -/
def bootRecord (b : Boot) : List Byte :=
  let st := (b.status.toList.mapIdx (fun i x => x.toNat * 2 ^ (2 * (i + 1)))).sum
  bytesOf 4 st ++ bytesOf 4 b.failed ++ bytesOf 8 b.count.toNat ++ List.replicate 48 0

/-- Bytes are signed under the firmware key: SHA-256 of the key is the key store unit's hash, and the signature verifies (R2,
R424, R428). -/
def firmwareSigned (k : Ksu) (b key : List Byte) (sig : BitVec 512) : Bool :=
  sha256 key = k.keyHash && ecdsaVerify key (sha256 b) sig

/-- BOOT_RECORD_CLEAR: only a command signed under the firmware key clears the record. -/
def execBootRecordClear (cmd : SignedBytes) (s : State) : Host.Outcome State Fault Refusal :=
  event (if firmwareSigned s.pkg.ksu cmd.bytes cmd.key cmd.sig then
      s.withPkg { s.pkg with boot := { s.pkg.boot with status := Vector.replicate 8 0, failed := 0, count := 0 } }
    else s)

/-- The report for a nonce: DEVID, the boot record, the digests of the running images, the nonce, and the signature, which
an erased attestation key cannot give (R427, R429). -/
def attestation (nonce : BitVec 256) (s : State) : List Byte :=
  let b := s.pkg.boot
  let body := bytesOf 8 (devidValue s.pkg).toNat ++ bootRecord b ++ b.images.flatMap (fun d => bytesOf 32 d.toNat)
    ++ bytesOf 32 nonce.toNat
  if s.pkg.ksu.attKey then
    body ++ bytesOf 64 (ecdsaSign Config.attestKey (Config.signNonce s.tick) (sha256 body)).toNat
  else body

/-- The certificate of the attestation key: its public key, signed by the identity key, which an erased identity key has not
signed (R427, R429, log 8). -/
def attestCertificate (s : State) : List Byte :=
  let key := publicKey Config.attestKey
  if s.pkg.ksu.idKey then key ++ bytesOf 64 (ecdsaSign Config.identityKey (Config.signNonce 0) (sha256 key)).toNat else key

/-! ## BAR0 (R421) -/

/-- The bytes of the attestation mailbox: the nonce that awaits its report, then the report and the certificate of its key, where
they are ready (R429, log 99). -/
def mailbox (s : State) : List Byte :=
  match s.pkg.boot.nonce, s.pkg.boot.report with
  | some n, _ => bytesOf 32 n.toNat
  | none, some r => List.replicate 32 0 ++ r ++ attestCertificate s
  | none, none => []

/-- What the host reads at an offset of BAR0: the boot record at 0, the mailbox at 0x100, zero elsewhere (R421). -/
def bar0Byte (off : Nat) (s : State) : Byte :=
  if off < 64 then (bootRecord s.pkg.boot).getD off 0
  else if 0x100 ≤ off then (mailbox s).getD (off - 0x100) 0
  else 0

/-- What a host write at an offset of BAR0 does: 32 bytes at the mailbox are a new nonce, which cancels the report that is
pending; every other write is ignored (R421, R429). -/
def bar0Write (off : Nat) (b : List Byte) (s : State) : State :=
  if off = 0x100 && b.length = 32 then
    s.withPkg { s.pkg with boot := { s.pkg.boot with nonce := some (BitVec.ofNat 256 (ofBytes b)), report := none } }
  else s

/-- MAILBOX_NONCE_WRITE. -/
def execMailboxNonceWrite (nonce : BitVec 256) (s : State) : Host.Outcome State Fault Refusal :=
  event (bar0Write 0x100 (bytesOf 32 nonce.toNat) s)

/-- ATTESTATION_REPORT_READY. -/
def execAttestationReportReady (s : State) : Host.Outcome State Fault Refusal :=
  event (match s.pkg.boot.nonce with
    | some n => s.withPkg { s.pkg with boot := { s.pkg.boot with nonce := none, report := some (attestation n s) } }
    | none => s)

/-! ## The arithmetic clock (R430) -/

def execClockStepDown (s : State) : Host.Outcome State Fault Refusal :=
  event (s.withPkg { s.pkg with clock16 := max 7 (s.pkg.clock16 - 1) })
def execClockStepUp (s : State) : Host.Outcome State Fault Refusal :=
  event (s.withPkg { s.pkg with clock16 := min 16 (s.pkg.clock16 + 1) })

/-! ## Boot (R424) -/

/-- Boot step n's own work passes. -/
def stepPasses (r : BootRun) (n : Nat) : Bool := r.pass.getD (n - 1) true

/-- Step 2's checks of a firmware image (R428). -/
def imageAccepted (k : Ksu) (r : BootRun) : Bool :=
  firmwareSigned k r.image r.key r.signature && k.counter.toNat ≤ r.counter.toNat

/-- A link of a dimension whose extent is not 1 has a neighbour (R13). -/
def hasNeighbour (ext : BitVec 12) (l : LinkNo) : Bool := 1 < extent ext (linkDim l)

/-- A link as boot step 5 leaves it (R296). -/
def bootLink (r : BootRun) (l : LinkNo) : Link :=
  let n := r.lanes.getD l.val 0
  let base : Link := { crcerr := 0, replay := 0, lanes := 0, conn := false, state := .off, streak := 0 }
  if !hasNeighbour r.ext l then base
  else if 32 ≤ n then { base with conn := true, lanes := 32, state := .up }
  else if 16 ≤ n then { base with conn := true, lanes := 16, state := .degraded }
  else { base with conn := true, state := .failed }

/-- A link fails to train. -/
def linkDead (r : BootRun) : Bool := ([0, 1, 2, 3, 4, 5] : List LinkNo).any (fun l => (bootLink r l).state = .failed)

/-- The package as a power cycle leaves it: HBM and every table and register lose their contents; pool and host memory and
the key store unit's storage keep theirs, the policies at their reset values (R424, R427). -/
def powerCycle (s : State) : State :=
  { s with
    c := Ctx.empty
    c2 := Ctx.empty
    slot1 := false
    grp := Grp.none
    core := Core.zero
    pkg := { Pkg.zero with
      mem := s.pkg.mem.filter (fun c => 2 ^ 48 ≤ c.1)
      ksu := { s.pkg.ksu with policy := Ksu.zero.policy, log := [] }
      boot := { s.pkg.boot with nonce := none, report := none, images := [] }
      inReset := true } }

/-- The order of the alarm policies (R427). -/
def policyRank : Policy → Nat
  | .log => 0
  | .halt => 1
  | .erase => 2

/-- A policy as a configuration byte gives it (log 62). -/
def policyOf (b : Byte) : Option Policy :=
  if b = 0 then some .log else if b = 1 then some .halt else if b = 2 then some .erase else none

/-- A policy loaded over another: it is only raised (R427). -/
def raised (old new : Policy) : Policy := if policyRank old < policyRank new then new else old

/-- Boot step 1 loads one policy for each alarm from the signed firmware configuration; none where the configuration is not
signed under the firmware key, or is not four policies (R427, log 62). -/
def loadPolicies (c : SignedBytes) (k : Ksu) : Option Ksu :=
  let l := c.bytes.filterMap policyOf
  if firmwareSigned k c.bytes c.key c.sig && c.bytes.length = 4 && l.length = 4 then
    some { k with policy := k.policy.mapIdx (fun i x => raised x (l.getD i x)) }
  else none

/-- What a boot step makes of the package, under its alternative or not; none where it fails. -/
def bootStep (r : BootRun) (alt : Bool) (n : Nat) (p : Pkg) : Option Pkg :=
  let ok := stepPasses r n
  match n with
  | 1 => if ok then (loadPolicies r.config p.ksu).map (fun k => { p with ksu := k }) else none
  | 2 =>
    if ok && imageAccepted p.ksu r then
      some { p with ksu := { p.ksu with counter := r.counter }, boot := { p.boot with images := [sha256 r.image] } }
    else none
  | 3 =>
    if ok && (alt || (r.failedPcs.isEmpty && r.deadStacks.isEmpty)) then
      let h := r.failedPcs.foldl (fun h q => retirePc q h) p.hbm
      some { p with hbm := { h with lanemap := r.deadStacks.foldl (fun x k => laneMapBit k.val 0 x) h.lanemap } }
    else none
  | 4 =>
    if ok && (alt || r.failing.isEmpty) then
      let p := r.failing.foldl (fun p c => retireCore c p) p
      some { p with cores := BitVec.ofNat 8 (255 - p.retired.length) }
    else none
  | 5 => if ok && (alt || !linkDead r) then some { p with links := Vector.ofFn (bootLink r) } else none
  | 6 => if ok then some { p with hostUp := true } else none
  | 7 => if ok && (alt || r.failedPorts.isEmpty) then some { p with poolUp := Vector.ofFn (fun i => !r.failedPorts.contains i) } else none
  | _ => if ok then some { p with fab := { p.fab with ext := r.ext, bootExt := r.ext }, inReset := false } else none

/-- A boot step has an alternative (R424). -/
def hasAlternative (n : Nat) : Bool := [2, 3, 4, 5, 7].contains n

/-- The lowest step that the record has as failed, or 0 (R424). -/
def lowestFailed (status : Vector (BitVec 2) 8) : Nat := ([1, 2, 3, 4, 5, 6, 7, 8].find? (fun n => status.toList.getD (n - 1) 0 = 2)).getD 0

/-- The boot record notes a step's status. -/
def noteStep (n : Nat) (st : BitVec 2) (p : Pkg) : Pkg :=
  let status := p.boot.status.mapIdx (fun i x => if i + 1 = n then st else x)
  { p with boot := { p.boot with status := status, failed := lowestFailed status } }

/-- The boot steps in order, each with its alternative where the record has it as failed; a failed one ends the boot, and the
record keeps what it holds of the steps after it (R424, log 62). -/
def bootSteps (r : BootRun) : List Nat → Pkg → Pkg
  | [], p => p
  | n :: l, p =>
    let alt := hasAlternative n && p.boot.status.toList.getD (n - 1) 0 = 2
    match bootStep r alt n p with
    | none => noteStep n 2 p
    | some q => bootSteps r l (noteStep n (if alt then 3 else 1) q)

/-- POWER_ON_BOOT. -/
def execPowerOnBoot (r : BootRun) (s : State) : Host.Outcome State Fault Refusal :=
  let s := powerCycle s
  let b := s.pkg.boot
  let p := { s.pkg with
    nodeid := r.node
    emergbase := r.emergbase &&& 0x000FFFFFFFFF0000
    boot := { b with count := b.count + 1 } }
  event (s.withPkg (bootSteps r [1, 2, 3, 4, 5, 6, 7, 8] p))

end Sys2Proof.Machine
end

