-- ==== Sys2Proof/Machine/Matrix.lean ====
section
/-! DEFINITION. The matrix array: its modes, exact accumulation, the drain converter, the sequencer with its routines, and
the M slots (R230 to R262). -/

namespace Sys2Proof.Machine

/-! ## Modes -/

/-- The format of a matrix operand: an element format, SP2 among them, or a block-scaled one (R230). -/
inductive MElem where
  | plain (f : Fmt)
  | block (t : BlockFmt)
deriving DecidableEq, Repr

/-- The operand format that a code names under BS (R75, R230). -/
def mElem (code : BitVec 4) (bs : Bool) : Option MElem :=
  match fmtOf code, bs with
  | some .e4m3, true => some (.block .bf8)
  | some .e2m1, true => some (.block .bfp4)
  | some .int4, true => some (.block .bi4)
  | some .e2m1, false | some .int4, false | some .sp2, true => none
  | f, _ => f.map .plain

/-- A mode (R230): the formats of A and B, the accumulator's, and the tile. -/
structure Mode where
  a : MElem
  b : MElem
  c : Fmt
  tm : Nat
  tn : Nat
deriving DecidableEq, Repr

/-- The formats of mode F8 (R230). -/
def MElem.isF8 : MElem → Bool
  | .block _ | .plain .e4m3 | .plain .e5m2 => true
  | .plain _ => false
/-- The formats of mode I8, and of F16. -/
def MElem.isI8 : MElem → Bool
  | .plain .int8 | .plain .uint8 => true
  | _ => false
def MElem.isF16 : MElem → Bool
  | .plain .fp16 | .plain .bf16 => true
  | _ => false
/-- The A formats of mode SP2. -/
def MElem.isSp2A : MElem → Bool
  | .plain .e4m3 | .plain .e5m2 | .plain .int8 => true
  | _ => false

/-- The mode of operand formats and an accumulator format (R230). -/
def modeWith (bs : Bool) (a b : MElem) (c : Fmt) : Option Mode :=
  if a.isI8 && b.isI8 && c = .int32 then some ⟨a, b, c, 128, 128⟩
  else if a.isF8 && b.isF8 && c = .fp32 then some ⟨a, b, c, 128, 128⟩
  else if a.isSp2A && b = .plain .sp2 && !bs && c = .fp32 then some ⟨a, b, c, 128, 128⟩
  else if a.isF16 && b.isF16 && c = .fp32 then some ⟨a, b, c, 128, 64⟩
  else if a = .plain .fp32 && b = .plain .fp32 && c = .fp32 then some ⟨a, b, c, 64, 64⟩
  else if a = .plain .fp64 && b = .plain .fp64 && c = .fp64 then some ⟨a, b, c, 32, 32⟩
  else none

/-- FMT's MA, MB, MC and MD, and BS (R76). -/
def maOf (fmt : W64) : BitVec 4 := fmt.extractLsb' 12 4
def mbOf (fmt : W64) : BitVec 4 := fmt.extractLsb' 16 4
def mcOf (fmt : W64) : BitVec 4 := fmt.extractLsb' 20 4
def mdOf (fmt : W64) : BitVec 4 := fmt.extractLsb' 24 4
def bsOf (fmt : W64) : Bool := fmt.getLsbD 9

/-- The mode of FMT's fields with a given B format code (R230). -/
def modeFor (fmt : W64) (mb : BitVec 4) : Option Mode :=
  match mElem (maOf fmt) (bsOf fmt), mElem mb (bsOf fmt), fmtOf (mcOf fmt) with
  | some a, some b, some c => modeWith (bsOf fmt) a b c
  | _, _, _ => none

/-- The mode that FMT names (R230, R231). -/
def modeOf (fmt : W64) : Option Mode := modeFor fmt (mbOf fmt)

/-- The mode of the Hadamard pass, from MA and MC alone (R243). -/
def hadaMode (fmt : W64) : Option Mode := modeFor fmt (maOf fmt)

/-- The bytes of n elements of a matrix operand (R70, R73, R230). -/
def MElem.bytes (e : MElem) (n : Nat) : Nat :=
  match e with
  | .plain f => n * widthOf f / 8
  | .block t => n / 64 * (blockBytes t + 16)

/-- The size of the tile of a mode (R230, R237). -/
def Mode.tile (m : Mode) : Nat := m.tm * m.tn * (widthOf m.c / 8)

/-- A mode, or FORMAT (R230). -/
def needMode (m : Option Mode) : Res Mode :=
  match m with
  | some m => .ok m
  | none => trapWith .format

/-! ## Values -/

/-- The value of an element of a plain format (R239): subnormals count at their value. -/
def plainVal (f : Fmt) (b : Nat) : Val :=
  match f, kindOf f with
  | .sp2, _ => .num (sp2Value b)
  | _, .fp k => k.value b
  | _, k => .num (Exact.ofInt (intValue k b))

/-- A value times a block's scale; a scale of 0xFF makes it NaN (R72, R239). -/
def blockScaled (sc : Nat) (v : Val) : Val :=
  if sc = 0xFF then .nan false
  else match v with
    | .num x => .num (x.scale ((sc : Int) - 127))
    | v => v

/-- The n values of a row of bytes (R70, R71, R73). -/
def rowVals (e : MElem) (n : Nat) (row : List Byte) : List Val :=
  match e with
  | .plain f =>
    let w := widthOf f / 8
    (List.range n).map (fun i => plainVal f (ofBytes ((row.drop (w * i)).take w)))
  | .block t =>
    (List.range (n / 64)).flatMap (fun g =>
      let x := ofBytes ((row.drop ((blockBytes t + 16) * g)).take (blockBytes t + 16))
      (List.range 64).map (fun i => blockScaled (blockScaleAt t x (i / 4)) (blockValue t (blockElemAt t x i))))

/-- Column i of rows of values. -/
def column (rows : List (List Val)) (i : Nat) : List Val := rows.map (fun r => r.getD i (.num (Exact.zero false)))

/-! ## Exact accumulation (R240) -/

/-- An element as a term. -/
def termOf : Val → FRes
  | .nan sig => .nan (if sig then fNV else 0)
  | .inf n => .inf n 0
  | .num x => .val x 0

/-- The exponent of the unit of a chunk: T − W, where W is the window of the accumulator's format. -/
def windowUnit (w : Nat) (xs : List Exact) : Int :=
  let tops := (xs.filter (fun x => !x.isZero)).map (fun x => x.log + 1)
  tops.foldl max (tops.headD 0) - w

/-- A term cut toward zero to a multiple of 2^u: the multiple, and whether it changed. -/
def cutTerm (u : Int) (x : Exact) : Int × Bool :=
  if u ≤ x.exp then (x.units u, false)
  else
    let d := 2 ^ (u - x.exp).toNat
    let n : Int := (x.man / d : Nat)
    (if x.neg then -n else n, x.man % d ≠ 0)

/-- ChunkAdd for a floating-point accumulator: c, and the products of the chunk (R240). -/
def chunkFp (k : FpFmt) (w : Nat) (c : Val) (ps : List FRes) : Nat × Flags6 :=
  let terms := ps ++ [termOf c]
  let nans := terms.filterMap (fun t => match t with | .nan f => some f | _ => none)
  let pos := terms.any (fun t => match t with | .inf n _ => !n | _ => false)
  let neg := terms.any (fun t => match t with | .inf n _ => n | _ => false)
  let xs := terms.filterMap (fun t => match t with | .val x _ => some x | _ => none)
  if !nans.isEmpty || (pos && neg) then (k.nanBits, nans.foldl (· ||| ·) (if pos && neg then fNV else 0))
  else if pos || neg then (k.signBit neg + k.infBits, 0)
  else if xs.all Exact.isZero then (k.signBit (xs.all (·.neg)), 0)
  else
    let u := windowUnit w xs
    let cuts := xs.map (cutTerm u)
    let sum := (cuts.map Prod.fst).sum
    let nx : Flags6 := if cuts.any Prod.snd then fNX else 0
    if sum = 0 then (0, nx)
    else
      let (b, f) := roundTo k ⟨.rne, 0, false, false⟩ ⟨sum < 0, sum.natAbs, u, false⟩
      (b, f ||| nx)

/-- The window of an accumulator format (R240). -/
def windowOf (c : Fmt) : Nat := if c = .fp64 then 106 else 48

/-- ChunkAdd (R240): an integer accumulator wraps. -/
def chunkAdd (c : Fmt) (x : Nat) (ps : List FRes) : Nat × Flags6 :=
  match kindOf c with
  | .fp k => chunkFp k (windowOf c) (k.value x) ps
  | .int w | .uint w =>
    (wrapN w (sextN w x + (ps.map (fun p => match p with | .val y _ => y.units 0 | _ => 0)).sum), 0)

/-- The products of an element in chunks of 32 (R240); the first argument bounds their number. -/
def chunksOf : Nat → List FRes → List (List FRes)
  | 0, _ => []
  | n + 1, l => if l.isEmpty then [] else l.take 32 :: chunksOf n (l.drop 32)

/-- An element with all its products added, chunk by chunk in increasing k (R240). -/
def accElem (c : Fmt) (x : Nat) (ps : List FRes) : Nat × Flags6 :=
  (chunksOf ps.length ps).foldl (fun acc p => let (y, f) := chunkAdd c acc.1 p; (y, acc.2 ||| f)) (x, 0)

/-- A tile with the product of A and B added (R254): `prod i j` lists the products of element (i, j) in increasing k. -/
def accTile (m : Mode) (cs : List Nat) (prod : Nat → Nat → List FRes) : List Nat × Flags6 :=
  let l := cs.mapIdx (fun n x => accElem m.c x (prod (n / m.tn) (n % m.tn)))
  (l.map Prod.fst, l.foldl (fun f e => f ||| e.2) 0)

/-- The products of mmac from the columns of A and of B. -/
def prodOf (a b : List (List Val)) (i j : Nat) : List FRes := List.zipWith fmul (a.getD i []) (b.getD j [])

/-- A product with an entry of the Hadamard matrix: outside the diagonal blocks a zero (R243, log 16). -/
def hadaTerm (n k j : Nat) (v : Val) : FRes :=
  if k / n ≠ j / n then .val (Exact.zero v.neg) 0
  else termOf (if popN 8 ((k % n) &&& (j % n)) % 2 = 1 then v.flip else v)

/-- The products of mhada from the columns of A (R243). -/
def hadaProd (n : Nat) (a : List (List Val)) (i j : Nat) : List FRes := (a.getD i []).mapIdx (fun k v => hadaTerm n k j v)

/-! ## The drain converter (R242) -/

/-- A drain format is legal for an accumulator format, with NORM and SCL (R242). -/
def drainOk (c : Fmt) (d : Option Fmt) (plain : Bool) (rm : RMode) : Bool :=
  match c, d with
  | .fp32, some .fp32 | .fp32, some .fp16 | .fp32, some .bf16 | .fp32, some .e4m3 | .fp32, some .e5m2
  | .fp64, some .fp64 | .fp64, some .fp32 => rm ≠ .sto
  | .int32, some .int32 | .int32, some .int16 | .int32, some .int8 | .int32, some .uint8 => plain
  | _, _ => false

/-- The normalisation 1 / √(2^(3 + NORM)) of an exact value, exactly or as a root with its open part (R242). -/
def normalise (norm : Nat) (x : Exact) : Exact :=
  let k := 3 + norm
  if norm = 0 || x.isZero then x
  else if k % 2 = 0 then x.scale (-((k / 2 : Nat) : Int))
  else { ((x.mul x).scale (-(k : Int))).sqrt with neg := x.neg }

/-- One drained element: x · s · e rounded once to MD (R242). -/
def drainElem (c d : Fmt) (fmt : W64) (norm : Nat) (sc : Option Val) (x : Nat) : Nat × Flags6 :=
  let r : Rounding := ⟨rmOf fmt, 0, satOf fmt, false⟩
  match kindOf c, kindOf d with
  | .fp k, .fp t =>
    match (match sc with | none => termOf (k.value x) | some v => fmul (k.value x) v) with
    | .nan f => (t.nanBits, f)
    | .inf n f => deliver t r (.inf n f)
    | .val y f => deliver t r (.val (normalise norm y) f)
  | _, t => intDeliver t (satOf fmt) (sextN 32 x)

/-! ## Descriptors -/

/-- The B descriptor's handle, panel and first row (R236). -/
def bHandle (b : W64) : W64 := b &&& 0xFFFFFFFF
def bPanel (b : W64) : Nat := fieldOf b 39 32
def bRow (b : W64) : Nat := fieldOf b 55 40

/-- The C descriptor's offset (R237). -/
def cOff (x : W64) : Nat := fieldOf x 19 0

/-- The drain descriptor's D.OFF and the bytes from one drained column to the next (R256). -/
def dOff (x : W64) : Nat := fieldOf x 41 20
def dPitch (x : W64) : Nat := 32 * fieldOf x 51 42

/-- K of mmac (R254). -/
def kOf (k : BitVec 12) : Nat := if k = 0 then 4096 else k.toNat

/-- The order of a Hadamard pass (R257). -/
def hadaOrder (ord : Nat) : Nat := 16 * 2 ^ ord

/-! ## Checks -/

/-- The stream of n rows (R235). -/
def checkStream (m : Mode) (asd : Asd) (n : Nat) (s : State) : Res Unit := do
  need (asd.off % 32 = 0) .misalign
  need (m.a.bytes m.tm ≤ 32 * asd.pitch) .bounds
  need (regionAt s.c.regions false asd.off ((n - 1) * (32 * asd.pitch) + m.a.bytes m.tm)).isSome .bounds

/-- The place of a tile (R237). -/
def checkTile (off size : Nat) (s : State) : Res Unit := do
  need (off % 256 = 0) .misalign
  need (regionAt s.c.regions true off size).isSome .bounds

/-- A tile that the operation opens (R238); TILE_OPEN comes before BUFFER_FULL (log 104). -/
def checkOpen (off size : Nat) (s : State) : Res Unit := do
  checkTile off size s
  let l := s.c.a.opens
  need (!l.any (fun o => o.1 ≠ off && o.1 < off + size && off < o.1 + o.2)) .tileOpen
  need (l.any (fun o => o.1 = off) || l.length < 16) .bufferFull

/-- The operand format of a residency (R265). -/
def resElem (d : W32) : Option MElem := mElem (BitVec.ofNat 4 (descCode d)) (descBs d)

/-- The residency that a descriptor names, for the rows needed: of an element format and a BS (R236, R265). -/
def checkRes (b : W64) (k0 rows : Nat) (want : MElem) (bs : Bool) (s : State) : Res Nat :=
  match validHandle (bHandle b) s with
  | none => trapWith .residencyAbsent
  | some i => do
    let e := resEnt s.core i
    match e.state with
    | .loading => .error (.resid none)
    | .absent =>
      if descRl e.desc && e.src.isSome && (spaceFor i s).isSome then .error (.resid (some i)) else trapWith .residencyAbsent
    | .stale => trapWith .staleResidency
    | .free | .revoked => trapWith .residencyAbsent
    | .ready =>
      need (resElem e.desc = some want && descBs e.desc = bs) .format
      need (decide (bPanel b < descPanels e.desc) && decide (k0 + rows ≤ descRows e.desc)) .bounds
      .ok i

/-- The checks of an operation, and the residencies it uses (R235 to R238, R242, R243, R252 to R257); those of mdrain and mhada
have no order in the spec (log 104). -/
def checkMx (k : MxKind) (fmt : W64) (asd : Asd) (s : State) : Res (List Nat) :=
  match k with
  | .mzero c => do
    let m ← needMode (modeOf fmt)
    checkOpen (cOff c) m.tile s
    .ok []
  | .mmac b c n _ => do
    let m ← needMode (modeOf fmt)
    let i ← checkRes b (bRow b) n m.b (bsOf fmt) s
    checkOpen (cOff c) m.tile s
    checkStream m asd n s
    .ok [i]
  | .mdrain d sc norm scl => do
    let m ← needMode (modeOf fmt)
    let md := fmtOf (mdOf fmt)
    need (drainOk m.c md (norm = 0 && !scl) (rmOf fmt)) .format
    checkTile (cOff d) m.tile s
    let col := m.tm * (widthOf (md.getD .fp32) / 8)
    need (dOff d % 32 = 0) .misalign
    need (col ≤ dPitch d) .bounds
    need (regionAt s.c.regions false (dOff d) ((m.tn - 1) * dPitch d + col)).isSome .bounds
    if scl then
      let i ← checkRes sc 0 0 (.plain .sp2) false s
      .ok [i]
    else .ok []
  | .mhada c ord _ => do
    let m ← needMode (hadaMode fmt)
    need (hadaOrder ord ≤ m.tn) .format
    checkOpen (cOff c) m.tile s
    checkStream m asd m.tn s
    .ok []
  | .call _ _ | .nop => .ok []

/-- The rows of the A stream that an operation consumes (R235). -/
def rowsUsed (k : MxKind) (fmt : W64) : Nat :=
  match k with
  | .mmac _ _ n _ => n
  | .mhada _ _ _ => ((hadaMode fmt).map (·.tn)).getD 0
  | .mzero _ | .mdrain _ _ _ _ | .call _ _ | .nop => 0

/-- ASD after an operation (R235). -/
def asdAfter (k : MxKind) (fmt : W64) (asd : Asd) : Asd := { asd with off := asd.off + rowsUsed k fmt * (32 * asd.pitch) }

/-- A tile joins the open set, and a tile leaves it (R238). -/
def opened (off size : Nat) (l : List (Nat × Nat)) : List (Nat × Nat) := l.filter (fun o => o.1 ≠ off) ++ [(off, size)]
def retired (off : Nat) (l : List (Nat × Nat)) : List (Nat × Nat) := l.filter (fun o => o.1 ≠ off)

/-- The size of the tile of a mode that was checked. -/
def tileOf (m : Option Mode) : Nat := (m.map Mode.tile).getD 0

/-- The open set after an operation (R238). -/
def opensAfter (k : MxKind) (fmt : W64) (l : List (Nat × Nat)) : List (Nat × Nat) :=
  match k with
  | .mzero c | .mmac _ c _ _ => opened (cOff c) (tileOf (modeOf fmt)) l
  | .mhada c _ _ => opened (cOff c) (tileOf (hadaMode fmt)) l
  | .mdrain d _ _ _ => retired (cOff d) l
  | .call _ _ | .nop => l

/-! ## Performing an operation -/

/-- Bytes of a buffer at a logical offset of one of the context's regions, in its back or front half. -/
def regionBytes (cb back : Bool) (off n : Nat) (s : State) : List Byte :=
  match regionAt s.c.regions cb off n with
  | some r => getBytes (s.buf cb) (r.phys back off) n
  | none => getBytes (s.buf cb) off n

/-- The physical cells of bytes written at a logical offset: the back half or the single copy (R156, R237). -/
def regionCells (cb : Bool) (off : Nat) (b : List Byte) (s : State) : Cells :=
  match regionAt s.c.regions cb off b.length with
  | some r => cellsAt (r.phys true off) b
  | none => cellsAt off b

/-- What compare mode keeps of a tile or drain write: buffer, place and bytes (R282, log 95). -/
def noteRunWrite (cb : Bool) (w : Cells) (s : State) : State :=
  match s.c.compare with
  | none => s
  | some r => s.withC { s.c with compare := some { r with
      log := r.log ++ bytesOf 1 cb.toNat ++ w.flatMap (fun x => bytesOf 4 x.1 ++ [x.2]) } }

/-- Matrix bytes reach a buffer. -/
def mxWrite (cb : Bool) (w : Cells) (s : State) : State := writeBuf cb w (s.withC (noteDirty cb w (noteRunWrite cb w s).c))

/-- Array clk that compare mode counts (R282). -/
def spendClk (n : Nat) (s : State) : State :=
  s.withC { s.c with compare := s.c.compare.map (fun r => { r with clk := r.clk + n }) }

/-- The array clk that an operation spends on k-steps (R230, R282). -/
def arrayClk (k : MxKind) (fmt : W64) : Nat :=
  match k with
  | .mmac _ _ n _ => ceilDiv n (if (modeOf fmt).any (fun m => m.b = .plain .sp2) then 2 else 1)
  | .mhada _ _ _ => ((hadaMode fmt).map (·.tn)).getD 0
  | .mzero _ | .mdrain _ _ _ _ | .call _ _ | .nop => 0

/-- A byte of a tile has been written by a matrix operation of this phase (R237, log 33). -/
def marked (c : Ctx) (a : Nat) : Bool := c.a.marks.any (fun t => t.1 ≤ a && a < t.1 + t.2)

/-- The elements of a tile (R237): from the back half what a matrix operation of this phase has written. -/
def readTile (m : Mode) (off : Nat) (s : State) : List Nat :=
  let n := widthOf m.c / 8
  let half (back : Bool) : List Byte := regionBytes true back off m.tile s
  let b := (List.zip (half true) (half false)).mapIdx (fun i x => if marked s.c (off + i) then x.1 else x.2)
  (List.range (m.tm * m.tn)).map (fun i => ofBytes ((b.drop (n * i)).take n))

/-- A tile is written, and marked (R237). -/
def writeTile (m : Mode) (off : Nat) (xs : List Nat) (s : State) : State :=
  let s := mxWrite true (regionCells true off (xs.flatMap (bytesOf (widthOf m.c / 8))) s) s
  let t := (off, m.tile)
  s.withA { s.c.a with marks := if s.c.a.marks.contains t then s.c.a.marks else t :: s.c.a.marks }

/-- Flags join MXSTAT.FLAGS (R234). -/
def orMx (f : Flags6) (s : State) : State := s.withA { s.c.a with mxstat := s.c.a.mxstat ||| f.zeroExtend 64 }

/-- The columns of A: A[i] by k (R235). -/
def streamCols (m : Mode) (asd : Asd) (n : Nat) (s : State) : List (List Val) :=
  let w := m.a.bytes m.tm
  let rows := (List.range n).map (fun k => rowVals m.a m.tm (regionBytes false asd.h (asd.off + k * (32 * asd.pitch)) w s))
  (List.range m.tm).map (column rows)

/-- The first byte of a panel's row in the source image (R267). -/
def rowAt (d : W32) (p k : Nat) : Nat :=
  (if descSp2 d then 2 * descPanels d * descTn d else 0) + (p * descRows d + k) * descRow d

/-- The columns of B: B[·][j] by k (R232, R254). -/
def panelCols (m : Mode) (e : ResEnt) (p k0 n : Nat) : List (List Val) :=
  let rows := (List.range n).map (fun k => rowVals m.b m.tn ((e.data.drop (rowAt e.desc p (k0 + k))).take (descRow e.desc)))
  (List.range m.tn).map (column rows)

/-- The channel scale of column j of a panel (R242, R267). -/
def channelScale (m : Mode) (e : ResEnt) (p j : Nat) : Val :=
  fpFP16.value (ofBytes ((e.data.drop (2 * (p * m.tn + j))).take 2))

/-- An operation is performed (R242, R243, R254 to R257). -/
def performMx (k : MxKind) (fmt : W64) (asd : Asd) (s : State) : State :=
  match k with
  | .mzero c => match modeOf fmt with
    | none => s
    | some m => writeTile m (cOff c) (List.replicate (m.tm * m.tn) 0) s
  | .mmac b c n z => match modeOf fmt with
    | none => s
    | some m =>
      let e := resEnt s.core (handleIndex b)
      let cs := if z then List.replicate (m.tm * m.tn) 0 else readTile m (cOff c) s
      let (xs, f) := accTile m cs (prodOf (streamCols m asd n s) (panelCols m e (bPanel b) (bRow b) n))
      orMx f (writeTile m (cOff c) xs s)
  | .mhada c ord z => match hadaMode fmt with
    | none => s
    | some m =>
      let cs := if z then List.replicate (m.tm * m.tn) 0 else readTile m (cOff c) s
      let (xs, f) := accTile m cs (hadaProd (hadaOrder ord) (streamCols m asd m.tn s))
      orMx f (writeTile m (cOff c) xs s)
  | .mdrain d sc norm scl => match modeOf fmt, fmtOf (mdOf fmt) with
    | some m, some t =>
      let cs := readTile m (cOff d) s
      let e := resEnt s.core (handleIndex sc)
      let one (j i : Nat) : Nat × Flags6 :=
        drainElem m.c t fmt norm (if scl then some (channelScale m e (bPanel sc) j) else none) (cs.getD (i * m.tn + j) 0)
      let cols := (List.range m.tn).map (fun j => (List.range m.tm).map (one j))
      let w := (cols.mapIdx (fun j c => regionCells false (dOff d + j * dPitch d)
        (c.flatMap (fun x => bytesOf (widthOf t / 8) x.1)) s)).flatten
      orMx (cols.foldl (fun f c => c.foldl (fun f x => f ||| x.2) f) 0) (mxWrite false w s)
    | _, _ => s
  | .call _ _ | .nop => s

/-- The physical byte ranges of a buffer that n bytes at a logical offset may occupy. -/
def bothHalves (cb : Bool) (off n : Nat) (s : State) : List (Bool × Nat × Nat) :=
  match regionAt s.c.regions cb off n with
  | some r => [(cb, r.phys false off, n), (cb, r.phys true off, n)]
  | none => []

/-- The bytes that an operation reads or writes (R245). -/
def touched (k : MxKind) (fmt : W64) (asd : Asd) (s : State) : List (Bool × Nat × Nat) :=
  let stream (m : Option Mode) : List (Bool × Nat × Nat) := match m with
    | none => []
    | some m => (List.range (rowsUsed k fmt)).flatMap (fun i =>
        bothHalves false (asd.off + i * (32 * asd.pitch)) (m.a.bytes m.tm) s)
  match k with
  | .mzero c => bothHalves true (cOff c) (tileOf (modeOf fmt)) s
  | .mmac _ c _ _ => bothHalves true (cOff c) (tileOf (modeOf fmt)) s ++ stream (modeOf fmt)
  | .mhada c _ _ => bothHalves true (cOff c) (tileOf (hadaMode fmt)) s ++ stream (hadaMode fmt)
  | .mdrain d _ _ _ =>
    bothHalves true (cOff d) (tileOf (modeOf fmt)) s ++
      match modeOf fmt with
      | none => []
      | some m => (List.range m.tn).flatMap (fun j =>
          bothHalves false (dOff d + j * dPitch d) (m.tm * (widthOf ((fmtOf (mdOf fmt)).getD .fp32) / 8)) s)
  | .call _ _ | .nop => []

/-- The places of n bytes at a logical offset, in the back or the front half. -/
def physRange (cb back : Bool) (off n : Nat) (s : State) : List (Bool × Nat) :=
  (span (match regionAt s.c.regions cb off n with
    | some r => r.phys back off
    | none => off) n).map (fun a => (cb, a))

/-- The bytes of a tile, in the halves that an operation reads (R237). -/
def tileSources (off n : Nat) (s : State) : List (Bool × Nat) :=
  (List.zip (physRange true true off n s) (physRange true false off n s)).mapIdx (fun i x => if marked s.c (off + i) then x.1 else x.2)

/-- The buffer bytes that an operation reads (R237, R242, R243, R256). -/
def mxSources (k : MxKind) (fmt : W64) (asd : Asd) (s : State) : List (Bool × Nat) :=
  let stream (m : Option Mode) : List (Bool × Nat) := match m with
    | none => []
    | some m => (List.range (rowsUsed k fmt)).flatMap (fun i => physRange false asd.h (asd.off + i * (32 * asd.pitch)) (m.a.bytes m.tm) s)
  match k with
  | .mmac _ c _ z => (if z then [] else tileSources (cOff c) (tileOf (modeOf fmt)) s) ++ stream (modeOf fmt)
  | .mhada c _ z => (if z then [] else tileSources (cOff c) (tileOf (hadaMode fmt)) s) ++ stream (hadaMode fmt)
  | .mdrain d _ _ _ => tileSources (cOff d) (tileOf (modeOf fmt)) s
  | .mzero _ | .call _ _ | .nop => []

/-- Poison among the bytes that an operation reads: its tile or drain write would take it (R184). -/
def mxPoison (k : MxKind) (fmt : W64) (asd : Asd) (s : State) : Option Nat :=
  (s.core.bad.find? (fun b => (mxSources k fmt asd s).contains b)).map Prod.snd

/-! ## The sequencer -/

/-- The residencies that an operation has named in the phase, for compare mode (R282). -/
def noteNamed (l : List Nat) (s : State) : State :=
  s.withC { s.c with named := s.c.named ++ l.filter (fun i => !s.c.named.contains i) }

/-- A matrix operation has named the residency: it counts as used (R269). -/
def touchRes (s : State) (i : Nat) : State := setRes i { resEnt s.core i with used := s.tick } s

/-- A check has passed: the residency is kept until the operation is performed, and counts as used (R236, R269). -/
def useRes (s : State) (i : Nat) : State :=
  let e := resEnt s.core i
  setRes i { e with usecnt := e.usecnt + 1, used := s.tick } s

/-- The operations of the running context in the sequencer (R244). -/
def queued (c : Ctx) : Nat := c.mxq.length + c.kats.length + (if c.routine.isSome then 1 else 0)

/-- The address of the slot that runs. -/
def slotAddr (s : State) : W64 := s.grp.pc + BitVec.ofNat 64 (4 * s.grp.idx)

/-- An operation is handed to the sequencer; the group stalls where it holds 16 (R244). -/
def enqueueMx (k : MxKind) (s : State) : Res State :=
  if 16 ≤ queued s.c then waitRoom
  else
    let (no, s) := nextEngine s
    let op : MxOp := ⟨no, k, s.c.a.fmt, s.c.a.asd, slotAddr s⟩
    .ok (s.withC { s.c with
      mxq := s.c.mxq ++ [op]
      rTouch := if mxBusy s.c then s.c.rTouch else [] })

/-- A direct operation (R244): it waits for what it follows, is checked, and joins the queue; the open set and ASD
change as it issues (R235, R238). -/
def directMx (tainted : Bool) (k : MxKind) (s : State) : Res State := do
  engineReady tainted s
  let fmt := s.c.a.fmt
  let asd := s.c.a.asd
  let used ← checkMx k fmt asd s
  let s ← enqueueMx k s
  let s := noteNamed used (used.foldl useRes s)
  .ok (s.withA { s.c.a with opens := opensAfter k fmt s.c.a.opens, asd := asdAfter k fmt asd })

/-- A parameter register as the group reads it, and its taint (R233). -/
def mReg (s : State) (n : Fin 8) : W64 := s.c.a.m[n]
def mTnt (s : State) (n : Fin 8) : Bool := s.c.a.mTaint.getLsbD n

/-- The codes of ERR (R234). -/
def mxErr : Cause → Nat
  | .illegal => 1 | .format => 2 | .bounds => 3 | .misalign => 4 | .residencyAbsent => 5 | .staleResidency => 6
  | .tileOpen => 7 | .bufferFull => 8 | .katFail => 9
  | _ => 0

/-- A fault of the matrix operation of a number (R247): every later matrix operation of the context is cancelled, MXSTAT
records the cause and the slot, and the trap is delivered at the next group. -/
def mxFault (no : Nat) (c : Cause) (slot : Nat) (addr : W64) (s : State) : State :=
  let s := dropLater no s
  let stat := BitVec.ofNat 64 (mxErr c * 2 ^ 28 + slot % 2 ^ 12 * 2 ^ 16)
  let s := onStats no (fun opens got => (opens, got.map (fun x => mix 0xFFFF0000 x stat))) s
  latchStats (s.withC { s.c with
    a := { s.c.a with mxstat := mix 0xFFFF0000 s.c.a.mxstat stat }
    late := s.c.late ++ [⟨c, addr, true⟩] })

/-! ## Routines -/

/-- The n words of the microprogram store from a slot. -/
def storeWords (k : Core) (base n : Nat) : List W32 := (span base n).map (fun i => (look k.mstore i).getD 0)

/-- Word i of a running routine. -/
def Routine.word (r : Routine) (k : Core) (i : Nat) : W32 := (look k.mstore (r.base + i)).getD 0

/-- The parameter register of a routine. -/
def Routine.reg (r : Routine) (n : Fin 8) : W64 := r.m[n]

/-- What a routine's slot is: an operation, an addition to a parameter register, a change of ASD, a retirement, or
control; a slot that no routine may hold is none (R248). -/
inductive RSlot where
  | op (k : MxKind)
  | write (n : Fin 8) (x : W64)
  | lda (x : W64) (h : Bool)
  | endTile (all : Bool) (x : W64)
  | loop (n : Fin 8) (off : W16)
  | ret
  | pad
  | bad
deriving DecidableEq, Repr

/-- Sext of madd's constant (R259). -/
def maddSum (x y : W64) (r : Bool) (c : BitVec 15) : W64 := x + (if r then y else 0) + c.signExtend 64

/-- A word of a routine, with the parameter registers of its copy. -/
def rslotOf (r : Routine) (w : W32) : RSlot :=
  match decodeSlot w with
  | .ok .pad => .pad
  | .ok (.instr (.mret)) => .ret
  | .ok (.instr (.mloop n off)) => .loop n off
  | .ok (.instr (.mend all c)) => .endTile all (r.reg c)
  | .ok (.instr (.mlda a h)) => .lda (r.reg a) h
  | .ok (.instr (.mmac b c k z)) => .op (.mmac (r.reg b) (r.reg c) (kOf k) z)
  | .ok (.instr (.mzero c)) => .op (.mzero (r.reg c))
  | .ok (.instr (.mdrain d sc norm scl)) => .op (.mdrain (r.reg d) (r.reg sc) norm.val scl)
  | .ok (.instr (.mhada c ord z)) => .op (.mhada (r.reg c) ord.val z)
  | .ok (.instr (.madd a b q c)) => .write a (maddSum (r.reg a) (r.reg b) q c)
  | _ => .bad

/-- A fault of an operation of a running routine, which stops (R247). -/
def routineFault (r : Routine) (c : Cause) (slot : Nat) (s : State) : State :=
  mxFault r.no c slot r.addr (s.withC { s.c with routine := none })

/-- The routine ends (R249). -/
def endRoutine (s : State) : State := s.withC { s.c with routine := none }

/-- The routine goes on after slot i of a group: to the next slot, or, where the group ends, as its `mret` or `mloop`
says; a target that is no group start within the routine is reported as ILLEGAL (R249, R251). -/
def afterSlot (r : Routine) (w : W32) (s : State) : State :=
  let next := r.pc + 1
  let set (r : Routine) : State := s.withC { s.c with routine := some r }
  if !stopOf w then (if next < r.len then set { r with pc := next } else endRoutine s)
  else if r.ret then endRoutine s
  else match r.jump with
    | some (t, slot) =>
      if 1 ≤ t && t < r.len && stopOf (r.word s.core (t - 1)) then set { r with pc := t, start := t, jump := none }
      else routineFault r .illegal slot s
    | none => if next < r.len then set { r with pc := next, start := next } else endRoutine s

/-- The target of an mloop in slots from the routine's guard; one before the guard is 0, which is no group start. -/
def loopTarget (start : Nat) (off : W16) : Nat := ((start : Int) + off.toInt).toNat

/-- The check of mend (R252). -/
def checkMend (all : Bool) (x : W64) (fmt : W64) (s : State) : Res Unit :=
  if all then .ok ()
  else do
    let m ← needMode (modeOf fmt)
    checkTile (cOff x) m.tile s

/-- The open set after mend (R252). -/
def mendOpens (all : Bool) (x : W64) (l : List (Nat × Nat)) : List (Nat × Nat) := if all then [] else retired (cOff x) l

/-- ASD as mlda sets it (R253). -/
def asdOf (x : W64) (h : Bool) : Asd := ⟨fieldOf x 21 0, fieldOf x 31 22, h⟩

/-- One slot of a running routine is performed (R247, R249); none while a residency check waits, with the reload that the
check starts. -/
def routineStep (r : Routine) (s : State) : State × Bool :=
  let w := r.word s.core r.pc
  if r.len ≤ r.pc then (endRoutine s, true)
  else match rslotOf r w with
    | .bad => (routineFault r .illegal r.pc s, true)
    | .pad => (afterSlot r w s, true)
    | .ret => (afterSlot { r with ret := true } w s, true)
    | .loop n off =>
      let c := r.reg n
      if 1 < c.toNat then (afterSlot { r with m := r.m.set n (c - 1), jump := some (loopTarget r.start off, r.pc) } w s, true)
      else (afterSlot { r with m := r.m.set n 0 } w s, true)
    | .write n x => (afterSlot { r with m := r.m.set n x } w s, true)
    | .lda x h => (afterSlot { r with asd := asdOf x h } w s, true)
    | .endTile all x =>
      match checkMend all x r.fmt s with
      | .ok _ => (afterSlot r w (changeOpens r.no (mendOpens all x) s), true)
      | .error (.trap c _) => (routineFault r c r.pc s, true)
      | .error _ => (s, false)
    | .op k =>
      match checkMx k r.fmt r.asd s with
      | .ok used =>
        match mxPoison k r.fmt r.asd s with
        | some off => (consumeLate (BitVec.ofNat 64 off) s, true)
        | none =>
          let s := s.withC { s.c with rTouch := touched k r.fmt r.asd s ++ s.c.rTouch }
          let s := noteNamed used (used.foldl touchRes (spendClk (arrayClk k r.fmt) (performMx k r.fmt r.asd s)))
          let s := changeOpens r.no (opensAfter k r.fmt) s
          (afterSlot { r with asd := asdAfter k r.fmt r.asd } w s, true)
      | .error (.trap c _) => (routineFault r c r.pc s, true)
      | .error (.resid (some i)) => (startReload i (some r.no) s, false)
      | .error _ => (s, false)

/-- The sequencer performs the running context's next operation, or the next slot of its routine (R244, R249); the flag
says whether it could. -/
def sequencerStep (s : State) : State × Bool :=
  match s.c.routine, s.c.mxq with
  | some r, _ => routineStep r s
  | none, [] => (s, false)
  | none, op :: rest =>
    let s := s.withC { s.c with mxq := rest }
    match op.kind with
    | .call n m =>
      match look s.core.routines n with
      | none => (mxFault op.no .illegal 0 op.addr s, true)
      | some (base, len) =>
        (s.withC { s.c with routine := some ⟨op.no, op.fmt, op.addr, base, len, 1, 1, none, false, m, op.asd⟩ }, true)
    | k =>
      match mxPoison k op.fmt op.asd s with
      | some off => (consumeLate (BitVec.ofNat 64 off) ((mxUses op).foldl unuse s), true)
      | none => ((mxUses op).foldl unuse (spendClk (arrayClk k op.fmt) (performMx k op.fmt op.asd s)), true)

/-- The same, and the reads of MXSTAT that waited for just this take their values (R262). -/
def matrixStep (s : State) : State × Bool :=
  let (t, done) := sequencerStep s
  (latchStats t, done)

/-- MATRIX_OP_PERFORM (R244): the running context's operation, or else the other context's. -/
def performMatrix (s : State) : State :=
  let (t, done) := matrixStep s
  if done then t else inOther (fun s => (matrixStep s).1) t

def execMatrixOpPerform (s : State) : Host.Outcome State Fault Refusal := event (performMatrix s)

/-! ## The known-answer tile (R258) -/

/-- The sequence y: n states of the generator from one on, each as a signed byte. -/
def katBytes : Nat → W32 → List Int
  | 0, _ => []
  | n + 1, x => let y := stepLane x; sextN 8 y.toNat :: katBytes n y

/-- The product's element (i, j) from the generated inputs: A[i][k] = y[128k + i], B[k][j] = y[16384 + 128k + j]. -/
def katElem (y : List Int) (i j : Nat) : Nat :=
  wrapN 32 ((List.range 128).map (fun k => y.getD (128 * k + i) 0 * y.getD (16384 + 128 * k + j) 0)).sum

/-- The signature of tile n. -/
def katSignature (n : Nat) : BitVec 28 :=
  let y := katBytes 32768 (BitVec.ofNat 32 (0x9E3779B9 * (n + 1)))
  let cells := (List.range 128).flatMap (fun i => (List.range 128).map (katElem y i))
  let sig : W64 := cells.foldl (fun (a : W64) c => a.rotateLeft 1 ^^^ BitVec.ofNat 64 c) 0
  sig.extractLsb' 0 28 ^^^ sig.extractLsb' 28 28 ^^^ (sig.extractLsb' 56 8).zeroExtend 28

/-- A wrong signature (R247, R283, R285): the trap is delivered, KATF is set, and the core joins the cullet. -/
def katFails (k : Kat) (s : State) : State :=
  let s := mxFault k.no .katFail 0 k.addr s
  let h := healthOf s.pkg Config.coreId
  s.withPkg (joinCullet Config.coreId (setHealth Config.coreId { h with katf := true } s.pkg))

/-- The running context's oldest known-answer tile, where the operations issued before it have been performed (R244). -/
def nextKat (c : Ctx) : Option Kat := c.kats.head?.filter (fun k => !matrixUnder c k.no)

/-- The running context's next known-answer tile is run. -/
def runKat (s : State) : State :=
  match nextKat s.c with
  | none => s
  | some k =>
    let s := spendClk 128 (s.withC { s.c with kats := s.c.kats.tail })
    if katSignature k.n = k.sig then s else katFails k s

/-- MKAT_RUN (R258). -/
def execMkatRun (s : State) : Host.Outcome State Fault Refusal :=
  event (if (nextKat s.c).isNone then inOther runKat s else runKat s)

/-! ## The M slots -/

/-- `mcall` (R249, R250). -/
def execMcall (n : Fin 64) (s : State) : Host.Outcome State Fault Refusal :=
  always s (fun s => do
    engineReady (s.c.a.mTaint ≠ 0) s
    need (look s.core.routines n.val).isSome .illegal
    enqueueMx (.call n.val s.c.a.m) s)

/-- `mret` may stand only in a routine (R251). -/
def execMret (s : State) : Host.Outcome State Fault Refusal := always s (fun _ => trapWith .illegal)

/-- `mloop` may stand only in a routine (R251). -/
def execMloop (_c : Fin 8) (_off : W16) (s : State) : Host.Outcome State Fault Refusal :=
  always s (fun _ => trapWith .illegal)

/-- `mend` (R252). -/
def execMend (all : Bool) (c : Fin 8) (s : State) : Host.Outcome State Fault Refusal :=
  always s (fun s => do
    engineReady (!all && mTnt s c) s
    checkMend all (mReg s c) s.c.a.fmt s
    let s ← enqueueMx .nop s
    .ok (s.withA { s.c.a with opens := mendOpens all (mReg s c) s.c.a.opens }))

/-- `mlda` (R253). -/
def execMlda (a : Fin 8) (h : Bool) (s : State) : Host.Outcome State Fault Refusal :=
  always s (fun s => do
    engineReady (mTnt s a) s
    let s ← enqueueMx .nop s
    .ok (s.withA { s.c.a with asd := asdOf (mReg s a) h }))

/-- `mmac` (R254). -/
def execMmac (b c : Fin 8) (k : BitVec 12) (z : Bool) (s : State) : Host.Outcome State Fault Refusal :=
  always s (fun s => directMx (mTnt s b || mTnt s c) (.mmac (mReg s b) (mReg s c) (kOf k) z) s)

/-- `mzero` (R255). -/
def execMzero (c : Fin 8) (s : State) : Host.Outcome State Fault Refusal :=
  always s (fun s => directMx (mTnt s c) (.mzero (mReg s c)) s)

/-- `mdrain` (R256). -/
def execMdrain (d sc : Fin 8) (norm : Fin 8) (scl : Bool) (s : State) : Host.Outcome State Fault Refusal :=
  always s (fun s => directMx (mTnt s d || (scl && mTnt s sc)) (.mdrain (mReg s d) (mReg s sc) norm.val scl) s)

/-- `mhada` (R257). -/
def execMhada (c : Fin 8) (ord : Fin 4) (z : Bool) (s : State) : Host.Outcome State Fault Refusal :=
  always s (fun s => directMx (mTnt s c) (.mhada (mReg s c) ord.val z) s)

/-- `mkat` (R258). -/
def execMkat (n : Fin 8) (s : State) : Host.Outcome State Fault Refusal :=
  always s (fun s => do
    match s.grp.lit with
    | none => trapWith .illegal
    | some v =>
      engineReady false s
      if 16 ≤ queued s.c then waitRoom
      else
        let (no, s) := nextEngine s
        .ok (s.withC { s.c with kats := s.c.kats ++ [⟨no, n.val, v, slotAddr s⟩] }))

/-- `madd` (R259). -/
def execMadd (a b : Fin 8) (r : Bool) (c : BitVec 15) (s : State) : Host.Outcome State Fault Refusal :=
  always s (fun s =>
    .ok (sched (.m a (maddSum (mReg s a) (mReg s b) r c) (mTnt s a || (r && mTnt s b))) 1 s))

/-! ## The microprogram store -/

/-- The words of a routine image in groups: each ends at a stop bit, the last as the image does. -/
def splitGroups : List W32 → List W32 → List (List W32)
  | [], [] => []
  | g, [] => [g]
  | g, w :: r => if stopOf w then (g ++ [w]) :: splitGroups [] r else splitGroups (g ++ [w]) r

/-- The opcode of an M slot (R28). -/
def mOp (w : W32) : Option Nat := if unitPart w = 2 then some (opOf w).toNat else none
where
  /-- [30:28] -/
  unitPart (w : W32) : Nat := (bits w 28 3).toNat

/-- A word is an M slot or a pad (R248). -/
def mOrPad (w : W32) : Bool := (mOp w).isSome || (match decodeSlot w with | .ok .pad => true | _ => false)

/-- A routine image is well formed (R248). -/
def wellFormedImage (l : List W32) : Bool :=
  match l with
  | [] => false
  | g :: r =>
    g = guardWord && (splitGroups [] r).all (fun x =>
      4 ≤ x.length && x.length ≤ 8 && stopOf (x.getLastD 0)
        && x.all mOrPad
        && (x.filter (fun w => mOp w = some 1 || mOp w = some 2)).length ≤ 1
        && x.all (fun w => mOp w ≠ some 0 && mOp w ≠ some 9 && mOp w ≠ some 0xB && mOp w ≠ some 0xC))

/-- A routine is installed: its slots at the base, and its entry (R248, R260). -/
def installRoutine (n base : Nat) (l : List W32) (k : Core) : Core :=
  { k with
    mstore := (l.mapIdx (fun i w => (base + i, w))).foldl (fun t e => put t e.1 e.2) k.mstore
    routines := put k.routines n (base, l.length) }

/-- A context has a call queued or a routine running (R260). -/
def callsOpen (c : Ctx) : Bool :=
  c.routine.isSome || c.mxq.any (fun o => match o.kind with | .call _ _ => true | _ => false)

/-- `mprog` is the supervisor's and waits for the calls of both contexts (R260). -/
def mprogReady (s : State) : Res Unit := do
  need s.c.id.sup .priv
  if callsOpen s.c || callsOpen s.c2 then waitRoom else .ok ()

/-- `mprog.set` (R260). -/
def execMprogSet (a b : Fin 8) (n : Fin 64) (s : State) : Host.Outcome State Fault Refusal :=
  always s (fun s => do
    mprogReady s
    let off := fieldOf (mReg s a) 21 0
    let base := fieldOf (mReg s b) 11 0
    let len := fieldOf (mReg s b) 24 12
    need (off % 4 = 0) .misalign
    need (decide (5 ≤ len) && decide (base + len ≤ 4096)) .bounds
    need (regionAt s.c.regions false off (4 * len)).isSome .bounds
    behindMatrix s
    let img := regionBytes false false off (4 * len) s
    let words := (List.range len).map (fun i => BitVec.ofNat 32 (ofBytes ((img.drop (4 * i)).take 4)))
    need (wellFormedImage words) .illegal
    .ok (s.withCore (installRoutine n.val base words s.core)))

/-- `mprog.clr` (R260). -/
def execMprogClr (n : Fin 64) (s : State) : Host.Outcome State Fault Refusal :=
  always s (fun s => do
    mprogReady s
    .ok (s.withCore { s.core with routines := del s.core.routines n.val }))

/-- The context's matrix work has all been performed. -/
def mxIdle (c : Ctx) : Bool := !mxBusy c && c.kats.isEmpty

/-- `msync` (R261). -/
def execMsync (s : State) : Host.Outcome State Fault Refusal := always s (fun s => .ok (waitFor .msync s))

/-! ## mset and mget -/

/-- `mset` to a parameter register (R262). -/
def execMset (g : Fin 16) (n : Fin 8) (a : Src) (s : State) : Host.Outcome State Fault Refusal :=
  guarded g s (fun s => do
    let (x, t, s) ← srcS a s
    .ok (sched (.m n x (t || predTaint s.c (guardReg g))) 1 s))

/-- `mset` to MXSTAT (R262): once the earlier operations have been performed. -/
def execMsetMxstat (g : Fin 16) (a : Src) (s : State) : Host.Outcome State Fault Refusal :=
  guarded g s (fun s => do
    let (x, _, s) ← srcS a s
    if matrixBefore s then waitRoom
    else
      let s := latchStats s
      .ok (s.withA { s.c.a with mxstat := mix 0xF000003F s.c.a.mxstat x }))

/-- `mget` from a parameter register (R262). -/
def execMget (g : Fin 16) (d : Dst) (n : Fin 8) (s : State) : Host.Outcome State Fault Refusal :=
  guarded g s (fun s => writeS d (mReg s n) (mTnt s n || predTaint s.c (guardReg g)) 1 s)

/-- `mget` from MXSTAT (R262): scoreboarded, its result due once the operations of earlier groups have been performed, and
taken as these leave MXSTAT. -/
def execMgetMxstat (g : Fin 16) (d : Dst) (s : State) : Host.Outcome State Fault Refusal :=
  guarded g s (fun s =>
    let t := predTaint s.c (guardReg g)
    if !matrixBefore s then writeS d (mxstatValue (atStart s).c) t 1 s
    else do
      let s ← claimS d s
      .ok (issueOp (latchStat s.c (memOp (.stat s.grp.eng (atStart s).c.a.opens none) (.scalar d) t false s)) s))

end Sys2Proof.Machine
end

