-- ==== Sys2Proof/Machine/Loader.lean ====
section
/-! DEFINITION. The loader of GIX images (R62 to R66, R248, R280, R319, R396, R408). -/

namespace Sys2Proof.Machine

/-! ## The image (R62, R63) -/

/-- CRC-32 with the IEEE 802.3 polynomial (R62): one bit, one byte, a list of bytes. -/
def crcBit (c : W32) : W32 := if c.getLsbD 0 then (c >>> 1) ^^^ 0xEDB88320 else c >>> 1
def crcByte (c : W32) (b : Byte) : W32 :=
  (List.range 8).foldl (fun c _ => crcBit c) (c ^^^ b.zeroExtend 32)
def crc32 (l : List Byte) : W32 := l.foldl crcByte 0xFFFFFFFF ^^^ 0xFFFFFFFF

/-- A section of an image: TYPE, RECSZ, LOAD and its bytes. -/
structure Section where
  type : Nat
  recsz : Nat
  load : Nat
  data : List Byte
deriving DecidableEq, Repr

/-- A range lies within an image. -/
def inImage (img : List Byte) (off n : Nat) : Bool := off + n ≤ img.length

/-- Entry i of the section table; none where it, or its section, lies outside the image. -/
def sectionAt (img : List Byte) (i : Nat) : Option Section :=
  let e := recNum img 0x18 8 + 32 * i
  let off := recNum img (e + 8) 8
  let size := recNum img (e + 0x10) 8
  if inImage img e 32 && inImage img off size then
    some ⟨recNum img e 2, recNum img (e + 2) 2, recNum img (e + 0x18) 8, (img.drop off).take size⟩
  else none

/-- The sections of an image. -/
def sectionsOf (img : List Byte) : Option (List Section) := (List.range (recNum img 0x10 4)).mapM (sectionAt img)

/-- The size of a table section's records (R63, R280, R319, R396, R408). -/
def recordSize (type : Nat) : Nat :=
  match type with
  | 8 => 320 | 9 => 32 | _ => 64

/-- How many entries a table holds (R21, R150, R248, R263, R406). -/
def tableSize (type : Nat) : Nat :=
  match type with
  | 4 => 1024 | 7 => 64 | 9 => 4096 | _ => 256

/-- A section of bytes: code, data or a task array. -/
def Section.isBytes (x : Section) : Bool := x.type = 1 || x.type = 2 || x.type = 3

/-- The records of a section, in order; the first argument counts them. -/
def cutRecords (n : Nat) : Nat → List Byte → List (List Byte)
  | 0, _ => []
  | k + 1, b => b.take n :: cutRecords n k (b.drop n)
def Section.records (x : Section) : List (List Byte) := cutRecords (recordSize x.type) (x.data.length / recordSize x.type) x.data

/-- The table entries or addresses that a section fills. -/
def Section.range (x : Section) : Nat × Nat :=
  (x.load, if x.isBytes then x.data.length else if x.type = 7 then 1 else x.data.length / recordSize x.type)

/-- Two sections fill an entry or an address twice. -/
def sectionsMeet (a b : Section) : Bool :=
  ((a.isBytes && b.isBytes) || a.type = b.type) && a.range.1 < b.range.1 + b.range.2 && b.range.1 < a.range.1 + a.range.2

/-- No two sections of a list meet. -/
def sectionsApart : List Section → Bool
  | [] => true
  | x :: l => l.all (fun y => !sectionsMeet x y) && sectionsApart l

/-- The section's form, and its indices within their table (R63, R65). -/
def Section.ok (x : Section) : Bool :=
  1 ≤ x.type && x.type ≤ 9
    && (x.isBytes || x.type = 7 || (x.recsz = recordSize x.type && x.data.length % recordSize x.type = 0))
    && (x.isBytes || x.range.1 + x.range.2 ≤ tableSize x.type)
    && (x.type ≠ 7 || x.data.length % 4 = 0)

/-- The header matches the device and the bytes (R65). -/
def headerOk (img : List Byte) (p : Pkg) : Bool :=
  inImage img 0 64 && recNum img 0 4 = 0x31584947 && recNum img 8 2 = 0x0880 && recNum img 0xA 1 = 2
    && recNum img 0x14 4 = (crc32 (img.drop 64)).toNat
    && (!(recNum img 0xB 1).testBit 0 || recNum img 0xC 2 = p.nodeid.toNat)

/-- The task section has a length and a place that a launch word can name (R66). -/
def taskSectionOk (x : Section) : Bool :=
  let n := x.data.length
  n % 64 = 0 && 64 ≤ n && n ≤ 64 * 65535 && x.load % 64 = 0 && x.load < 2 ^ 48

/-! ## Bytes and tensors -/

/-- Bytes are placed at an address translated through PTROOT; none where a page of it does not translate. -/
def placeBytes (env load : Nat) (b : List Byte) (s : State) : Option State :=
  let va := BitVec.ofNat 64 load
  if load < 2 ^ 64 && spaceOf va = 0 && nodeOf va = 0 then
    match envRange s.pkg env va b.length with
    | (parts, none) => some (writeMem (layOver parts b).1 s)
    | (_, some _) => none
  else none

/-! ## Residencies (R280) -/

/-- The owner of a load that the loader makes: no context, under the environment's roots. -/
def loaderOwner (p : Pkg) (env : Nat) : Owner :=
  { Owner.none with
    sup := true
    asid := envReg p env 6
    ptroot := envReg p env 0
    ptpool := envReg p env 1
    pthost := envReg p env 2 }

/-- A residency record is installed in entry i of the modelled core, where CORES names it; none where it cannot be. -/
def installRes (env i : Nat) (b : List Byte) (s : State) : Option State :=
  let f := recNum b
  let desc : W32 := BitVec.ofNat 32 (f 0x28 8)
  let e := resEnt s.core i
  if f 0x31 1 ≠ 0 || f 0x34 12 ≠ 0 || f 0x32 2 = 0 || fieldOf (BitVec.ofNat 64 (f 0x28 8)) 7 6 ≠ 0
      || (resFormat (descCode desc) (descBs desc)).isNone || f 0x20 8 % 256 ≠ 0 then none
  else if !(f 0 32).testBit Config.coreId.toNat then some s
  else if e.state ≠ .free then none
  else
    match makeSpace 256 (granules desc) s with
    | none => none
    | some s =>
      let e := { ResEnt.freed (BitVec.ofNat 16 (f 0x32 2)) with
        state := .absent, tenant := BitVec.ofNat 8 (f 0x30 1), desc := desc, space := true, used := s.tick }
      let s := completeLoad i (startLoad i (BitVec.ofNat 64 (f 0x20 8)) (loaderOwner s.pkg env) false none (setRes i e s))
      if (resEnt s.core i).state = .ready then some s else none

/-! ## Routines (R248) -/

/-- A run of n store slots from a base that no valid routine occupies. -/
def runFree (k : Core) (base n : Nat) : Bool :=
  base + n ≤ 4096 && k.routines.all (fun r => base + n ≤ r.2.1 || r.2.1 + r.2.2 ≤ base)

/-- The lowest such run: it begins at 0 or where a routine ends. -/
def lowestRun (k : Core) (n : Nat) : Option Nat :=
  ((0 :: k.routines.map (fun r => r.2.1 + r.2.2)).filter (fun b => runFree k b n)).foldl (fun a b => match a with
    | none => some b
    | some x => some (min x b)) none

/-- A routine section is installed. -/
def loadRoutine (x : Section) (s : State) : Option State :=
  let ws := (cutRecords 4 (x.data.length / 4) x.data).map (fun b => BitVec.ofNat 32 (ofBytes b))
  if !wellFormedImage ws then none
  else (lowestRun s.core ws.length).map (fun base => s.withCore (installRoutine x.load base ws s.core))

/-- Sections in rising order of LOAD. -/
def insertSection (x : Section) : List Section → List Section
  | [] => [x]
  | y :: l => if x.load < y.load then x :: y :: l else y :: insertSection x l

/-! ## Groups and streams (R396, R408) -/

/-- A group record; none where it is malformed. -/
def groupOf (b : List Byte) : Option GroupRec :=
  let n := recNum b 0x20 2
  let rem (i : Nat) : Nat := recNum b (0x40 + 4 * i) 4
  if 64 < n || recNum b 0x22 30 ≠ 0 || (List.range 64).any (fun i => rem i / 2 ^ 24 ≠ 0 || bitsOf (rem i) 15 12 ≠ 0 || (n ≤ i && rem i ≠ 0)) then none
  else some ⟨BitVec.ofNat 256 (recNum b 0 32), (List.range n).map (fun i => (BitVec.ofNat 12 (rem i), bitsOf (rem i) 23 16))⟩

/-- Code and data sections hold every byte from one address to another; the first argument counts the sections. -/
def coveredFrom (l : List Section) : Nat → Nat → Nat → Bool
  | 0, lo, hi => hi ≤ lo
  | k + 1, lo, hi =>
    if hi ≤ lo then true
    else match l.find? (fun x => (x.type = 1 || x.type = 2) && x.load ≤ lo && lo < x.load + x.data.length) with
      | some x => coveredFrom l k (x.load + x.data.length) hi
      | none => false

/-- A stream record fills entry i (R407, R408), where the image has placed its initial state; none where it is refused. -/
def loadStream (env i : Nat) (placed : List Section) (b : List Byte) (s : State) : Option State :=
  let f := recNum b
  let half := f 4 2
  let home := f 0x10 8
  if f 0 4 = 0 then some s
  else if f 0 4 ≠ 1 || half = 0 || 128 < half || f 6 2 ≠ 0 || f 0xC 4 ≠ 0 || f 0x18 8 ≠ 0 || home % 2 ^ 16 ≠ 0 || 2 ^ 48 ≤ home
      || (look s.pkg.streams i).isSome || fieldOf s.pkg.sctcfg 20 16 * 2 ^ 16 < 512 * half
      || !coveredFrom placed placed.length home (home + 512 * half) then none
  else match envRange s.pkg env (BitVec.ofNat 64 home) (512 * half) with
    | (parts, none) =>
      let frames := parts.map (fun x => alignDown x.1 (2 ^ 16))
      let e : Stream :=
        ⟨.evicted, 0, 0, half, frames, BitVec.ofNat 64 home, BitVec.ofNat 32 (f 8 4), s.pkg.devtime, 0, false⟩
      some (s.withPkg (pinFrames frames { s.pkg with streams := put s.pkg.streams i e }))
    | (_, some _) => none

/-! ## The image is placed (R65, R66) -/

/-- The records of a section are taken in order. -/
def eachRecord (f : Nat → List Byte → State → Option State) : Nat → List (List Byte) → State → Option State
  | _, [], s => some s
  | i, b :: l, s => (f i b s).bind (eachRecord f (i + 1) l)

/-- One section other than the task section. -/
def loadSection (env : Nat) (all : List Section) (x : Section) (s : State) : Option State :=
  match x.type with
  | 1 | 2 => placeBytes env x.load x.data s
  | 4 => placeBytes env ((envReg s.pkg env 4 &&& sysregMask 0x026).toNat + 64 * x.load) x.data s
  | 5 => eachRecord (installRes env) x.load x.records s
  | 6 => eachRecord (fun i b s => some (fillChan i b s)) x.load x.records s
  | 7 => loadRoutine x s
  | 8 => eachRecord (fun i b s => (groupOf b).map (fun g => fillGroup (BitVec.ofNat 8 i) g s)) x.load x.records s
  | 9 => eachRecord (fun i b s => loadStream env i all b s) x.load x.records s
  | _ => some s

/-- Sections are taken in order; bytes first, then the tables. -/
def loadSections (env : Nat) (all : List Section) : List Section → State → Option State
  | [], s => some s
  | x :: l, s => (loadSection env all x s).bind (loadSections env all l)

/-- The task array, and then the launch word (R66). Where the launch word's address does not translate, the word cannot be
written and the image is refused (log 64). -/
def loadTasks (die : Fin 2) (n : Fin 16) (env : Nat) (l : List Section) (s : State) : Option State :=
  match l with
  | [] => some s
  | [x] =>
    if !taskSectionOk x then none
    else do
      let s ← placeBytes env x.load x.data s
      let pa ← launchPa s.pkg (s.disp die) n
      some (writeMem (cellsAt pa (bytesOf 8 (x.data.length / 64 * 2 ^ 48 + x.load))) s)
  | _ => none

/-- The machine with an image placed; none where the loader refuses it. -/
def loadImage (die : Fin 2) (n : Fin 16) (img : List Byte) (s : State) : Option State := do
  let d := s.disp die
  let env := (d.lwenv[n]).toNat
  let all ← if headerOk img s.pkg then sectionsOf img else none
  if !(all.all (·.ok)) || !sectionsApart all || !(d.lwaddr[n]).getLsbD 0 then none
  else
    let bytes := all.filter (fun x => x.type = 1 || x.type = 2)
    let routines := (all.filter (fun x => x.type = 7)).foldl (fun l x => insertSection x l) []
    let others := all.filter (fun x => !x.isBytes && x.type ≠ 7)
    let s ← loadSections env all (bytes ++ routines ++ others) s
    loadTasks die n env (all.filter (fun x => x.type = 3)) s

/-- GIX_IMAGE_LOAD: an image that is refused changes nothing. -/
def execGixImageLoad (die : Fin 2) (slot : Fin 16) (img : List Byte) (s : State) : Host.Outcome State Fault Refusal :=
  event ((loadImage die slot img s).getD s)

end Sys2Proof.Machine
end

