-- ==== Sys2Proof/Machine/TokenMerge.lean ====
section
/-! DEFINITION. Token merge: map slots and their commands, matching, merging and restoring, and `vlgsz` (R370 to
R383). -/

namespace Sys2Proof.Machine

/-! ## Map slots -/

/-- The modelled core's grove (R11). -/
def groveOf : Nat := bitsOf Config.coreId.toNat 7 4

/-- The handle of a map slot (R370). -/
def mapHandle (i : Nat) (gen : W16) : W32 := BitVec.ofNat 32 (groveOf * 2 ^ 20 + i * 2 ^ 16 + gen.toNat)

/-- The slot that a handle names, where it is valid for the running context; otherwise the handle is lost (R370). -/
def mapOf (h : W32) (s : State) : Option Nat :=
  let i := bitsOf h.toNat 18 16
  let m := mapSlot s.core i
  if h = mapHandle i m.gen && m.owner = some s.c.id.ctxid then some i else none

/-- A map slot replaced, and the lowest FREE one: neither this core holds it nor another of the grove (R370, R372, log 54). -/
def setMap (i : Nat) (m : MapSlot) (s : State) : State := s.withCore { s.core with maps := put s.core.maps i m }
def freeMapSlot (s : State) : Option Nat :=
  (List.range 8).find? (fun i => (mapSlot s.core i).owner.isNone && !Config.slotHeld s.tick i)

/-- The GEN under which a FREE slot is taken: it has advanced, skipping 0, with each time that another core has freed the slot
(R370, log 54). -/
def takenGen (i : Nat) (s : State) : W16 :=
  BitVec.ofNat 16 (((mapSlot s.core i).gen.toNat - 1 + Config.slotUses s.tick i) % 65535 + 1)

/-- The map of a slot and generation, and the maps with one replaced (R371). -/
def mapData (k : Core) (i : Nat) (gen : W16) : Option MapData := k.mapData.find? (fun d => d.slot = i && d.gen = gen)
def setMapData (d : MapData) (s : State) : State :=
  s.withCore { s.core with mapData := s.core.mapData.filter (fun x => !(x.slot = d.slot && x.gen = d.gen)) ++ [d] }

/-- The maps of slots since freed are forgotten once no command names them (R381). -/
def pruneMaps (s : State) : State :=
  let named (d : MapData) : Bool := (s.c.tmq ++ s.c2.tmq).any (fun c => c.slot = d.slot && c.gen = d.gen)
  let live (d : MapData) : Bool := (mapSlot s.core d.slot).gen = d.gen && (mapSlot s.core d.slot).owner.isSome
  s.withCore { s.core with mapData := s.core.mapData.filter (fun d => named d || live d) }

/-! ## Records (R374) -/

/-- A merge record's fields. -/
structure MergeRec where
  handle : W32
  src : Nat
  dst : Nat
  sz : Nat
  n : Nat
  rcnt : Nat
  w : Nat
  fmt : Fmt
  sp : Nat
  dp : Nat
deriving DecidableEq, Repr

/-- FMTC (R374). -/
def mergeFmt (c : Nat) : Option Fmt :=
  match c with
  | 0 => some .fp32
  | 1 => some .fp16
  | 2 => some .bf16
  | _ => none

/-- The bytes of a row. -/
def MergeRec.row (r : MergeRec) : Nat := r.w * (widthOf r.fmt / 8)

/-- The instructions that read a merge record: `tm.match`, `tm.merge` with FIN, `tm.unmrg`. -/
inductive TmUse where
  | pair
  | merge (fin : Bool)
  | restore
deriving DecidableEq, Repr

/-- A record's fields, or FORMAT for a field outside its range, a nonzero reserved byte or a short pitch (R374). -/
def mergeRec (u : TmUse) (b : List Byte) : Res MergeRec :=
  let f := entNum b
  match mergeFmt (f 0x16 1) with
  | none => trapWith .format
  | some fmt =>
    let r : MergeRec :=
      ⟨BitVec.ofNat 32 (f 0 4), f 4 4, f 8 4, f 0xC 4, f 0x10 2, f 0x12 2, f 0x14 2, fmt, f 0x18 4, f 0x1C 4⟩
    let ok := 1 ≤ r.w && r.w ≤ 1024 && r.row ≤ r.sp && r.row ≤ r.dp && f 0x17 1 = 0 && f 0x20 32 = 0
      && (u = .pair || r.handle = 0) && (u = .merge true || r.sz = 0)
      && (if u = .pair then r.rcnt ≤ r.n / 2 else r.rcnt = 0)
    if ok then .ok r else trapWith .format

/-- SRC, DST, SZ and the pitches are multiples of 4 (R374). -/
def mergeAligned (r : MergeRec) : Res Unit := need ([r.src, r.dst, r.sz, r.sp, r.dp].all (fun x => x % 4 = 0)) .misalign

/-- n rows of a record lie wholly within one AS region: the physical offset of row 0, in the back half or else the front
half or single copy (R156, R374). -/
def rowsAt (off pitch row n : Nat) (back : Bool) (s : State) : Res Nat :=
  if n = 0 then .ok off
  else match regionAt s.c.regions false off ((n - 1) * pitch + row) with
    | none => trapWith .bounds
    | some r => .ok (r.phys back off)

/-- A handle, or MAP_LOST (R370). -/
def needMap (h : W32) (s : State) : Res (Nat × MapSlot) :=
  match mapOf h s with
  | none => trapWith .mapLost
  | some i => .ok (i, mapSlot s.core i)

/-! ## Commands (R375) -/

/-- A command joins the context's; a ninth waits (R375). -/
def enqueueTm (i : Nat) (gen : W16) (k : TmKind) (s : State) : Res State :=
  if 8 ≤ s.c.tmq.length then waitRoom
  else
    let (no, s) := nextEngine s
    .ok (s.withC { s.c with tmq := s.c.tmq ++ [⟨no, i, gen, k⟩] })

/-! ## Matching (R376) -/

/-- The n rows of a format at physical AS offsets. -/
def rowsOf (f : Fmt) (src pitch w n : Nat) (s : State) : List (List Val) :=
  (List.range n).map (fun i => rowVals (.plain f) w (getBytes s.core.as (src + i * pitch) (w * (widthOf f / 8))))

/-- The exact sum of the products of two rows. -/
def dotVals (x y : List Val) : Val := sumVal (List.zipWith prodVal x y)

/-- nr: the rounded reciprocal root of a row's square sum, with +∞ made 0. -/
def invNorm (k : List Val) : Nat :=
  let y := (deliver fpFP32 rnMode (rsqrtVal (val32 (rn (dotVals k k))))).1
  if y = fpFP32.infBits then 0 else y

/-- Score, a NaN counting as −∞. -/
def tmScore (ke ko : List Val) (ne no : Nat) : Val :=
  let x := rn (prodVal (dotVals ke ko) (val32 ne))
  match val32 (rn (prodVal (val32 x) (val32 no))) with
  | .nan _ => .inf true
  | v => v

/-- The best of some candidates, the first among equals. -/
def bestOf : List (Nat × Val) → Option (Nat × Val)
  | [] => none
  | x :: r => some (r.foldl (fun b y => if b.2.lt y.2 then y else b) x)

/-- An edge placed by decreasing score, after those that score as much. -/
def insertEdge (x : Nat × Nat × Val) : List (Nat × Nat × Val) → List (Nat × Nat × Val)
  | [] => [x]
  | y :: r => if y.2.2.lt x.2.2 then x :: y :: r else y :: insertEdge x r

/-- The edges of a matching that keeps `rcnt`. -/
def matchEdges (rows : List (List Val)) (rcnt : Nat) : List (Nat × Nat) :=
  let n := rows.length
  let nr := rows.map invNorm
  let row (i : Nat) := rows.getD i []
  let odd := (List.range n).filter (fun i => i % 2 = 1)
  let even := (List.range n).filter (fun i => i % 2 = 0)
  let all := even.filterMap (fun e =>
    (bestOf (odd.map (fun o => (o, tmScore (row e) (row o) (nr.getD e 0) (nr.getD o 0))))).map (fun b => (e, b.1, b.2)))
  ((all.foldl (fun l x => insertEdge x l) []).take rcnt).map (fun x => (x.1, x.2.1))

/-! ## Merging (R377) -/

/-- pos: the new index of each of n tokens under an edge set. -/
def mergePos (edges : List (Nat × Nat)) (n : Nat) : List Nat :=
  let kept := (List.range n).filter (fun i => !edges.any (fun e => e.1 = i))
  let rank (i : Nat) := (findIdx (fun k => k = i) kept).getD 0
  (List.range n).map (fun i => match edges.find? (fun e => e.1 = i) with
    | some e => rank e.2
    | none => rank i)

/-- The tokens that take new index j. -/
def tokensAt (pos : List Nat) (j : Nat) : List Nat := (List.range pos.length).filter (fun i => pos.getD i 0 = j)

/-- The sizes after a merge to k tokens. -/
def mergeSizes (pos sizes : List Nat) (k : Nat) : List Nat :=
  (List.range k).map (fun j => ((tokensAt pos j).map (fun i => sizes.getD i 0)).sum)

/-- The weighted mean of some terms, rounded once to the format. -/
def meanOf (f : Fmt) (terms : List (Nat × Val)) : Nat :=
  let total := (terms.map Prod.fst).sum
  let sum := sumVal (terms.map (fun t => prodVal (.num (Exact.ofInt t.1)) t.2))
  match kindOf f with
  | .fp k => rnTo k (bareVal (fdiv sum (.num (Exact.ofInt total))))
  | .int _ | .uint _ => 0

/-- The merged rows. -/
def mergeRows (f : Fmt) (w : Nat) (rows : List (List Val)) (pos sizes : List Nat) (k : Nat) : List (List Byte) :=
  (List.range k).map (fun j =>
    let l := tokensAt pos j
    (List.range w).flatMap (fun d =>
      bytesOf (widthOf f / 8) (meanOf f (l.map (fun i => (sizes.getD i 0, (rows.getD i []).getD d (.num (Exact.zero false))))))))

/-! ## Performing a command -/

/-- A byte range meets another. -/
def rangesMeet (a n b m : Nat) : Bool := a < b + m && b < a + n

/-- n source rows and m destination rows share a byte. -/
def rowsMeet (src sp n dst dp m row : Nat) : Bool :=
  (List.range n).any (fun i => (List.range m).any (fun j => rangesMeet (src + i * sp) row (dst + j * dp) row))

/-- Rows as cells from a physical offset; `free` says that a row's bytes are unspecified (R374), or that no rule states them
(log 55). -/
def rowCells (free : Nat → Bool) (tick dst dp : Nat) (rows : List (List Byte)) : Cells :=
  (rows.mapIdx (fun j b =>
    (cellsAt (dst + j * dp) b).map (fun c => if free j then (c.1, Config.freeByte tick c.1) else c))).flatten

/-- The bytes of a spill image (R382). -/
def spillImage (dest size : List Nat) : List Byte :=
  let b := bytesOf 4 0x4D524B31 ++ bytesOf 2 dest.length ++ bytesOf 2 size.length ++ bytesOf 56 0
    ++ dest.flatMap (bytesOf 2) ++ size.flatMap (bytesOf 2)
  b ++ bytesOf (64 * ceilDiv b.length 64 - b.length) 0

/-- What a command does to its map and to AS (R376 to R378, R382). -/
def performTm (k : TmKind) (d : MapData) (s : State) : State :=
  match k with
  | .pair src pitch w f n rcnt => setMapData { d with edges := matchEdges (rowsOf f src pitch w n s) rcnt } s
  | .merge src dst sp dp w f sizes =>
    let n := d.size.length
    let m := n - d.edges.length
    let pos := mergePos d.edges n
    let row := w * (widthOf f / 8)
    let out := mergeRows f w (rowsOf f src sp w n s) pos d.size m
    let size := mergeSizes pos d.size m
    let meet := rowsMeet src sp n dst dp m row
    let s := mxWrite false (rowCells (fun j => meet || size.getD j 0 = 0) s.tick dst dp out) s
    match sizes with
    | none => s
    | some sz =>
      let s := mxWrite false (cellsAt sz (size.flatMap (bytesOf 4))) s
      setMapData { d with dest := d.dest.map (fun t => pos.getD t 0), size := size, edges := [] } s
  | .restore src dst sp dp len =>
    let out := d.dest.map (fun j => getBytes s.core.as (src + j * sp) len)
    let meet := rowsMeet src sp d.size.length dst dp d.dest.length len
    mxWrite false (rowCells (fun _ => meet) s.tick dst dp out) s
  | .spill off => mxWrite false (cellsAt off (spillImage d.dest d.size)) s

/-- The AS bytes that a command reads, as ranges (R376 to R378). -/
def tmReads (k : TmKind) (d : MapData) : List (Nat × Nat) :=
  match k with
  | .pair src pitch w f n _ => (List.range n).map (fun i => (src + i * pitch, w * (widthOf f / 8)))
  | .merge src _ sp _ w f _ => (List.range d.size.length).map (fun i => (src + i * sp, w * (widthOf f / 8)))
  | .restore src _ sp _ len => d.dest.map (fun j => (src + j * sp, len))
  | .spill _ => []

/-- Poison among the bytes that a command reads (R184). -/
def tmPoison (k : TmKind) (d : MapData) (s : State) : Option Nat :=
  (s.core.bad.find? (fun b => !b.1 && (tmReads k d).any (fun r => inRange r b.2))).map Prod.snd

/-- The running context's oldest command is performed (R375), poison that it reads being consumed (R184); the flag says whether there was one. -/
def tmStep (s : State) : State × Bool :=
  match s.c.tmq with
  | [] => (s, false)
  | c :: rest =>
    let s := s.withC { s.c with tmq := rest }
    match mapData s.core c.slot c.gen with
    | none => (s, true)
    | some d =>
      match tmPoison c.kind d s with
      | some off => (consumeLate (BitVec.ofNat 64 off) s, true)
      | none => (pruneMaps (performTm c.kind d s), true)

/-- TM_COMMAND_PERFORM: the running context's command, or else the other context's. -/
def performToken (s : State) : State :=
  let (t, done) := tmStep s
  if done then t else inOther (fun s => (tmStep s).1) t

def execTmCommandPerform (s : State) : Host.Outcome State Fault Refusal := event (performToken s)

/-! ## The C slots (R380) -/

/-- A map slot that the phase has changed. -/
def MapSlot.changed (m : MapSlot) : MapSlot := { m with touched := true }

/-- `tm.match` on a new map: the lowest FREE slot, with the identity map of n tokens (R372). -/
def newMap (n : Nat) (s : State) : Res (Nat × State) :=
  match freeMapSlot s with
  | none => trapWith .mapFull
  | some i =>
    let gen := takenGen i s
    let s := setMap i ⟨gen, some s.c.id.ctxid, true, n, n, 0, true⟩ s
    .ok (i, setMapData ⟨i, gen, List.range n, List.replicate n 1, []⟩ s)

/-- The map that `tm.match` matches: a new one, or a READY one of N tokens (R372, R376). -/
def matchedMap (r : MergeRec) (s : State) : Res (Nat × State) :=
  if r.handle = 0 then do
    need (2 ≤ r.n && r.n ≤ 8192) .mapState
    newMap r.n s
  else do
    let (i, m) ← needMap r.handle s
    need (!m.pending && r.n = m.nc) .mapState
    .ok (i, setMap i { m.changed with pending := true } s)

/-- `tm.match` (R376). -/
def execTmMatch (g : Fin 16) (bk : Bool) (d : Reg) (b : Src) (s : State) : Host.Outcome State Fault Refusal :=
  guarded g s (fun s => do
    let (y, t, s) ← srcS b s
    let t := t || predTaint s.c (guardReg g)
    let rec_ ← record 64 y.toNat 64 s
    let r ← mergeRec .pair rec_
    mergeAligned r
    let src ← rowsAt r.src r.sp r.row r.n bk s
    let (i, s) ← matchedMap r s
    engineReady t s
    let m := mapSlot s.core i
    let s := setMap i { m with rcnt := r.rcnt } s
    let s ← enqueueTm i m.gen (.pair src r.sp r.w r.fmt r.n r.rcnt) s
    writeReg d ((mapHandle i m.gen).zeroExtend 64) t 1 s)

/-- The rows that a use of a handle writes: as many as its map says, or, of a lost handle, as few as a map of N tokens could
say (R374, R377, R378, log 55). -/
def destRows (u : TmUse) (h : W32) (n : Nat) (s : State) : Nat :=
  match mapOf h s, u with
  | some i, .restore => (mapSlot s.core i).n0
  | some i, _ => (mapSlot s.core i).nc - (mapSlot s.core i).rcnt
  | none, .restore => n
  | none, _ => ceilDiv n 2

/-- `tm.merge` (R377). -/
def execTmMerge (g : Fin 16) (bk fin : Bool) (a b : Src) (s : State) : Host.Outcome State Fault Refusal :=
  guarded g s (fun s => do
    let (x, y, t, s) ← srcSS a b s
    let rec_ ← record 64 y.toNat 64 s
    let r ← mergeRec (.merge fin) rec_
    mergeAligned r
    let src ← rowsAt r.src r.sp r.row r.n bk s
    let h := x.extractLsb' 0 32
    let k := destRows (.merge fin) h r.n s
    let dst ← rowsAt r.dst r.dp r.row k true s
    let sz ← if fin then rowsAt r.sz 0 (4 * k) 1 true s else .ok 0
    let (i, m) ← needMap h s
    need (m.pending && r.n = m.nc) .mapState
    engineReady (t || predTaint s.c (guardReg g)) s
    let s := if fin then setMap i { m.changed with pending := false, nc := k, rcnt := 0 } s else s
    enqueueTm i m.gen (.merge src dst r.sp r.dp r.w r.fmt (if fin then some sz else none)) s)

/-- `tm.unmrg` (R378). -/
def execTmUnmrg (g : Fin 16) (bk : Bool) (a b : Src) (s : State) : Host.Outcome State Fault Refusal :=
  guarded g s (fun s => do
    let (x, y, t, s) ← srcSS a b s
    let rec_ ← record 64 y.toNat 64 s
    let r ← mergeRec .restore rec_
    mergeAligned r
    let src ← rowsAt r.src r.sp r.row r.n bk s
    let h := x.extractLsb' 0 32
    let dst ← rowsAt r.dst r.dp r.row (destRows .restore h r.n s) true s
    let (i, m) ← needMap h s
    need (!m.pending && r.n = m.nc) .mapState
    engineReady (t || predTaint s.c (guardReg g)) s
    enqueueTm i m.gen (.restore src dst r.sp r.dp r.row) s)

/-- `tm.free` (R381). -/
def execTmFree (g : Fin 16) (a : Src) (s : State) : Host.Outcome State Fault Refusal :=
  guarded g s (fun s => do
    let (x, t, s) ← srcS a s
    let (i, m) ← needMap (x.extractLsb' 0 32) s
    engineReady (t || predTaint s.c (guardReg g)) s
    .ok (pruneMaps (setMap i (freeMap m) s)))

/-- The bytes of a spill image of lengths N0 and NC (R382). -/
def imageBytes (n0 nc : Nat) : Nat := 64 * ceilDiv (64 + 2 * n0 + 2 * nc) 64

/-- `tm.spill` (R382). -/
def execTmSpill (g : Fin 16) (a b : Src) (s : State) : Host.Outcome State Fault Refusal :=
  guarded g s (fun s => do
    let (x, y, t, s) ← srcSS a b s
    need (y.toNat % 64 = 0) .misalign
    let (i, m) ← needMap (x.extractLsb' 0 32) s
    let off ← rowsAt y.toNat 0 (imageBytes m.n0 m.nc) 1 true s
    need (!m.pending) .mapState
    engineReady (t || predTaint s.c (guardReg g)) s
    enqueueTm i m.gen (.spill off) s)

/-- DEST and SIZE of a spill image's bytes; none where it is not an image of a map (R371, R382). -/
def imageMap (b : List Byte) : Option (List Nat × List Nat) :=
  let n0 := entNum b 4 2
  let nc := entNum b 6 2
  let dest := (List.range n0).map (fun t => entNum b (64 + 2 * t) 2)
  let size := (List.range nc).map (fun j => entNum b (64 + 2 * n0 + 2 * j) 2)
  let counts := (List.range nc).map (fun j => (dest.filter (fun t => t = j)).length)
  if dest.all (fun t => t < nc) && size = counts then some (dest, size) else none

/-- The lengths of an image whose header is legal (R371, R382). -/
def imageHead (b : List Byte) : Option (Nat × Nat) :=
  let n0 := entNum b 4 2
  let nc := entNum b 6 2
  if entNum b 0 4 = 0x4D524B31 && 2 ≤ n0 && n0 ≤ 8192 && 1 ≤ nc && nc ≤ n0 then some (n0, nc) else none

/-- The AS bytes that a queued command may write, as ranges (R375). -/
def tmWrites (s : State) (c : TmCmd) : List (Nat × Nat) :=
  match mapData s.core c.slot c.gen with
  | none => []
  | some d =>
    match c.kind with
    | .pair _ _ _ _ _ _ => []
    | .merge _ dst _ dp w f sizes =>
      (List.range d.size.length).map (fun j => (dst + j * dp, w * (widthOf f / 8)))
        ++ (match sizes with | some sz => [(sz, 4 * d.size.length)] | none => [])
    | .restore _ dst _ dp len => (List.range d.dest.length).map (fun j => (dst + j * dp, len))
    | .spill off => [(off, imageBytes d.dest.length d.size.length)]

/-- A read of n bytes at a physical AS offset stalls its group while a command of an earlier group has still to write one of
them, as a V slot's would (R245, R375). -/
def behindToken (off n : Nat) (s : State) : Res Unit :=
  if (atStart s).c.tmq.any (fun c => (tmWrites s c).any (fun r => rangesMeet r.1 r.2 off n)) then waitRoom else .ok ()

/-- The AS bytes of an image at an offset, once the commands before it have written theirs. -/
def imageAt (off n : Nat) (s : State) : Res (List Byte) := do
  let b ← record 64 off n s
  let at_ ← rowsAt off 0 n 1 false s
  behindToken at_ n s
  .ok b

/-- `tm.fill` (R382). -/
def execTmFill (g : Fin 16) (d : Reg) (b : Src) (s : State) : Host.Outcome State Fault Refusal :=
  guarded g s (fun s => do
    let (y, t, s) ← srcS b s
    let t := t || predTaint s.c (guardReg g)
    let hd ← imageAt y.toNat 64 s
    match imageHead hd with
    | none => trapWith .mapState
    | some (n0, nc) => do
      let img ← imageAt y.toNat (imageBytes n0 nc) s
      match imageMap img with
      | none => trapWith .mapState
      | some (dest, size) =>
        match freeMapSlot s with
        | none => trapWith .mapFull
        | some i => do
          engineReady t s
          let gen := takenGen i s
          let s := (nextEngine s).2
          let s := setMap i ⟨gen, some s.c.id.ctxid, false, n0, nc, 0, true⟩ s
          writeReg d ((mapHandle i gen).zeroExtend 64) t 1 (setMapData ⟨i, gen, dest, size, []⟩ s))

/-! ## vlgsz (R379, R383) -/

/-- The log of a size, in the base that BASE names: base 2, or e. -/
def logSize (base : Bool) (n : Nat) : Val :=
  let l := val32 (deliver fpFP32 rnMode (log2Val (val32 (rn (.num (Exact.ofInt n)))) false)).1
  if base then val32 (rn (prodVal l (.num cE1))) else l

/-- One logit with its token's size. -/
def addLogSize (fmt : W64) (base : Bool) (size x : Nat) (st : W32) : Nat × Flags6 :=
  if size = 0 then (fpFP32.signBit true + fpFP32.infBits, 0)
  else deliver fpFP32 (roundingOf fmt st) (fadd (rmOf fmt) (fpFP32.operand (dnOf fmt) x) (logSize base size))

/-- `vlgsz`. -/
def execVlgsz (g : Fin 8) (q : Bool) (d : Reg) (a : Src) (base : Bool) (s : State) : Host.Outcome State Fault Refusal :=
  guardedV g s (fun k s => do
    let _ ← needFmt [.fp32] s
    let (x, t, s) ← srcV .uint32 a s
    let (z, u) ← srcVReg d s
    mapElems .fp32 true k (.reg d) q (t || u || predTaint s.c (guardRegV g)) 6
      (fun i st => addLogSize s.c.a.fmt base (elem x 32 i) (elem z 32 i) st) s)

end Sys2Proof.Machine
end

