-- ==== Sys2Proof/Machine/Dispatch.lean ====
section
/-! DEFINITION. One arm for each step: the meaning it calls. -/

namespace Sys2Proof.Machine

def exec (i : Instr) (s : State) : Host.Outcome State Fault Refusal :=
  match i with
  | .add g d a b => Sys2Proof.Machine.execAdd g d a b s
  | .sub g d a b => Sys2Proof.Machine.execSub g d a b s
  | .mul g d a b => Sys2Proof.Machine.execMul g d a b s
  | .mulh g d a b => Sys2Proof.Machine.execMulh g d a b s
  | .mulhu g d a b => Sys2Proof.Machine.execMulhu g d a b s
  | .div g d a b => Sys2Proof.Machine.execDiv g d a b s
  | .divu g d a b => Sys2Proof.Machine.execDivu g d a b s
  | .rem g d a b => Sys2Proof.Machine.execRem g d a b s
  | .remu g d a b => Sys2Proof.Machine.execRemu g d a b s
  | .and g d a b => Sys2Proof.Machine.execAnd g d a b s
  | .or g d a b => Sys2Proof.Machine.execOr g d a b s
  | .xor g d a b => Sys2Proof.Machine.execXor g d a b s
  | .andn g d a b => Sys2Proof.Machine.execAndn g d a b s
  | .shl g d a b => Sys2Proof.Machine.execShl g d a b s
  | .shr g d a b => Sys2Proof.Machine.execShr g d a b s
  | .sar g d a b => Sys2Proof.Machine.execSar g d a b s
  | .rotl g d a b => Sys2Proof.Machine.execRotl g d a b s
  | .min g d a b => Sys2Proof.Machine.execMin g d a b s
  | .max g d a b => Sys2Proof.Machine.execMax g d a b s
  | .minu g d a b => Sys2Proof.Machine.execMinu g d a b s
  | .maxu g d a b => Sys2Proof.Machine.execMaxu g d a b s
  | .addsat g d a b => Sys2Proof.Machine.execAddsat g d a b s
  | .clz g d a => Sys2Proof.Machine.execClz g d a s
  | .ctz g d a => Sys2Proof.Machine.execCtz g d a s
  | .popc g d a => Sys2Proof.Machine.execPopc g d a s
  | .bfx g d a b => Sys2Proof.Machine.execBfx g d a b s
  | .bfi g d a b => Sys2Proof.Machine.execBfi g d a b s
  | .sext g d a b => Sys2Proof.Machine.execSext g d a b s
  | .ceq g p a b => Sys2Proof.Machine.execCeq g p a b s
  | .cne g p a b => Sys2Proof.Machine.execCne g p a b s
  | .clt g p a b => Sys2Proof.Machine.execClt g p a b s
  | .cltu g p a b => Sys2Proof.Machine.execCltu g p a b s
  | .cle g p a b => Sys2Proof.Machine.execCle g p a b s
  | .cleu g p a b => Sys2Proof.Machine.execCleu g p a b s
  | .sel p d a b => Sys2Proof.Machine.execSel p d a b s
  | .mov g d a => Sys2Proof.Machine.execMov g d a s
  | .ldb g d a b => Sys2Proof.Machine.execLdb g d a b s
  | .ldh g d a b => Sys2Proof.Machine.execLdh g d a b s
  | .ldw g d a b => Sys2Proof.Machine.execLdw g d a b s
  | .ldd g d a b => Sys2Proof.Machine.execLdd g d a b s
  | .stb g d a b => Sys2Proof.Machine.execStb g d a b s
  | .sth g d a b => Sys2Proof.Machine.execSth g d a b s
  | .stw g d a b => Sys2Proof.Machine.execStw g d a b s
  | .std g d a b => Sys2Proof.Machine.execStd g d a b s
  | .ldc g d a b => Sys2Proof.Machine.execLdc g d a b s
  | .ldro g d a b => Sys2Proof.Machine.execLdro g d a b s
  | .ldpm g d a b => Sys2Proof.Machine.execLdpm g d a b s
  | .stpm g d a b => Sys2Proof.Machine.execStpm g d a b s
  | .atomAdd o sc d a b => Sys2Proof.Machine.execAtomAdd o sc d a b s
  | .atomMin o sc d a b => Sys2Proof.Machine.execAtomMin o sc d a b s
  | .atomMax o sc d a b => Sys2Proof.Machine.execAtomMax o sc d a b s
  | .atomAnd o sc d a b => Sys2Proof.Machine.execAtomAnd o sc d a b s
  | .atomOr o sc d a b => Sys2Proof.Machine.execAtomOr o sc d a b s
  | .atomXor o sc d a b => Sys2Proof.Machine.execAtomXor o sc d a b s
  | .atomXchg o sc d a b => Sys2Proof.Machine.execAtomXchg o sc d a b s
  | .atomCas o sc d a b => Sys2Proof.Machine.execAtomCas o sc d a b s
  | .sysRd g d a => Sys2Proof.Machine.execSysRd g d a s
  | .sysWr g a b => Sys2Proof.Machine.execSysWr g a b s
  | .timeRd g d m => Sys2Proof.Machine.execTimeRd g d m s
  | .roinv g => Sys2Proof.Machine.execRoinv g s
  | .tlbInv g a b => Sys2Proof.Machine.execTlbInv g a b s
  | .mset g n a => Sys2Proof.Machine.execMset g n a s
  | .msetMxstat g a => Sys2Proof.Machine.execMsetMxstat g a s
  | .mget g d n => Sys2Proof.Machine.execMget g d n s
  | .mgetMxstat g d => Sys2Proof.Machine.execMgetMxstat g d s
  | .vadd g q d a b => Sys2Proof.Machine.execVadd g q d a b s
  | .vsub g q d a b => Sys2Proof.Machine.execVsub g q d a b s
  | .vmul g q d a b => Sys2Proof.Machine.execVmul g q d a b s
  | .vfma g q d a b => Sys2Proof.Machine.execVfma g q d a b s
  | .vfms g q d a b => Sys2Proof.Machine.execVfms g q d a b s
  | .vfnma g q d a b => Sys2Proof.Machine.execVfnma g q d a b s
  | .vmin g q d a b => Sys2Proof.Machine.execVmin g q d a b s
  | .vmax g q d a b => Sys2Proof.Machine.execVmax g q d a b s
  | .vabs g q d a => Sys2Proof.Machine.execVabs g q d a s
  | .vneg g q d a => Sys2Proof.Machine.execVneg g q d a s
  | .vdiv g q d a b => Sys2Proof.Machine.execVdiv g q d a b s
  | .vsqrt g q d a => Sys2Proof.Machine.execVsqrt g q d a s
  | .vrcp g q d a => Sys2Proof.Machine.execVrcp g q d a s
  | .vrsqrt g q d a => Sys2Proof.Machine.execVrsqrt g q d a s
  | .vexp2 g q d a => Sys2Proof.Machine.execVexp2 g q d a s
  | .vlog2 g q d a => Sys2Proof.Machine.execVlog2 g q d a s
  | .vand g q d a b => Sys2Proof.Machine.execVand g q d a b s
  | .vor g q d a b => Sys2Proof.Machine.execVor g q d a b s
  | .vxor g q d a b => Sys2Proof.Machine.execVxor g q d a b s
  | .vshl g q d a b => Sys2Proof.Machine.execVshl g q d a b s
  | .vshr g q d a b => Sys2Proof.Machine.execVshr g q d a b s
  | .vsar g q d a b => Sys2Proof.Machine.execVsar g q d a b s
  | .vmulh g q d a b => Sys2Proof.Machine.execVmulh g q d a b s
  | .vdot4 g q d a b => Sys2Proof.Machine.execVdot4 g q d a b s
  | .vceq g q p a b => Sys2Proof.Machine.execVceq g q p a b s
  | .vcne g q p a b => Sys2Proof.Machine.execVcne g q p a b s
  | .vclt g q p a b => Sys2Proof.Machine.execVclt g q p a b s
  | .vcle g q p a b => Sys2Proof.Machine.execVcle g q p a b s
  | .vcun g q p a b => Sys2Proof.Machine.execVcun g q p a b s
  | .vsel p d a b => Sys2Proof.Machine.execVsel p d a b s
  | .vmov g q d a => Sys2Proof.Machine.execVmov g q d a s
  | .vbcast g q d a => Sys2Proof.Machine.execVbcast g q d a s
  | .vext g q d a b => Sys2Proof.Machine.execVext g q d a b s
  | .vins g q d a b => Sys2Proof.Machine.execVins g q d a b s
  | .vperm g q d a b => Sys2Proof.Machine.execVperm g q d a b s
  | .vrot g q d a b => Sys2Proof.Machine.execVrot g q d a b s
  | .vred g q d a op => Sys2Proof.Machine.execVred g q d a op s
  | .vscan g q d a op => Sys2Proof.Machine.execVscan g q d a op s
  | .vsticky g q d => Sys2Proof.Machine.execVsticky g q d s
  | .vstclr g q mask => Sys2Proof.Machine.execVstclr g q mask s
  | .vcvt g q d a h t => Sys2Proof.Machine.execVcvt g q d a h t s
  | .vqnt q d a t => Sys2Proof.Machine.execVqnt q d a t s
  | .vdqn q d a t => Sys2Proof.Machine.execVdqn q d a t s
  | .vrnd g q d a m => Sys2Proof.Machine.execVrnd g q d a m s
  | .vscl g q d a b => Sys2Proof.Machine.execVscl g q d a b s
  | .vsp2Enc g q d a h => Sys2Proof.Machine.execVsp2Enc g q d a h s
  | .vsp2Dec g q d a h => Sys2Proof.Machine.execVsp2Dec g q d a h s
  | .vpk g q d a b => Sys2Proof.Machine.execVpk g q d a b s
  | .vupk g q d a x w idx => Sys2Proof.Machine.execVupk g q d a x w idx s
  | .vld g pm d a b => Sys2Proof.Machine.execVld g pm d a b s
  | .vst g pm d a b => Sys2Proof.Machine.execVst g pm d a b s
  | .vlda g h d a b => Sys2Proof.Machine.execVlda g h d a b s
  | .vsta g d a b => Sys2Proof.Machine.execVsta g d a b s
  | .vldc g d a b => Sys2Proof.Machine.execVldc g d a b s
  | .vstc g d a b => Sys2Proof.Machine.execVstc g d a b s
  | .vgat g q d a b => Sys2Proof.Machine.execVgat g q d a b s
  | .vsct g d a b => Sys2Proof.Machine.execVsct g d a b s
  | .vpf g k a b => Sys2Proof.Machine.execVpf g k a b s
  | .vsmrg d a k => Sys2Proof.Machine.execVsmrg d a k s
  | .vlgsz g q d a base => Sys2Proof.Machine.execVlgsz g q d a base s
  | .mcall n => Sys2Proof.Machine.execMcall n s
  | .mret => Sys2Proof.Machine.execMret s
  | .mloop c off => Sys2Proof.Machine.execMloop c off s
  | .mend all c => Sys2Proof.Machine.execMend all c s
  | .mlda a h => Sys2Proof.Machine.execMlda a h s
  | .mmac b c k z => Sys2Proof.Machine.execMmac b c k z s
  | .mzero c => Sys2Proof.Machine.execMzero c s
  | .mdrain d sc norm scl => Sys2Proof.Machine.execMdrain d sc norm scl s
  | .mhada c ord z => Sys2Proof.Machine.execMhada c ord z s
  | .mkat n => Sys2Proof.Machine.execMkat n s
  | .madd a b r c => Sys2Proof.Machine.execMadd a b r c s
  | .mprogSet a b n => Sys2Proof.Machine.execMprogSet a b n s
  | .mprogClr n => Sys2Proof.Machine.execMprogClr n s
  | .msync => Sys2Proof.Machine.execMsync s
  | .cpSrc g e hi a b => Sys2Proof.Machine.execCpSrc g e hi a b s
  | .cpDst g e hi a b => Sys2Proof.Machine.execCpDst g e hi a b s
  | .cpShp g e hi b => Sys2Proof.Machine.execCpShp g e hi b s
  | .cpFmt g e b => Sys2Proof.Machine.execCpFmt g e b s
  | .cpFmtCtl g e b => Sys2Proof.Machine.execCpFmtCtl g e b s
  | .cpGo g e acq rel inp cw a b => Sys2Proof.Machine.execCpGo g e acq rel inp cw a b s
  | .cpFill g e on b => Sys2Proof.Machine.execCpFill g e on b s
  | .cpStat g e clr d => Sys2Proof.Machine.execCpStat g e clr d s
  | .cpCancel g e b => Sys2Proof.Machine.execCpCancel g e b s
  | .cpTdef g a b => Sys2Proof.Machine.execCpTdef g a b s
  | .resAlloc g d b => Sys2Proof.Machine.execResAlloc g d b s
  | .resLoad g a b => Sys2Proof.Machine.execResLoad g a b s
  | .resPin g a => Sys2Proof.Machine.execResPin g a s
  | .resUnpin g all a => Sys2Proof.Machine.execResUnpin g all a s
  | .resRevoke g a => Sys2Proof.Machine.execResRevoke g a s
  | .resReload g a => Sys2Proof.Machine.execResReload g a s
  | .resQ g d b => Sys2Proof.Machine.execResQ g d b s
  | .rmaConn g a b => Sys2Proof.Machine.execRmaConn g a b s
  | .rmaConnClose g a => Sys2Proof.Machine.execRmaConnClose g a s
  | .rmaPut g nt a b => Sys2Proof.Machine.execRmaPut g nt a b s
  | .rmaGet g e cw a b => Sys2Proof.Machine.execRmaGet g e cw a b s
  | .rmaRed g nt op a b => Sys2Proof.Machine.execRmaRed g nt op a b s
  | .rmaStat g d b => Sys2Proof.Machine.execRmaStat g d b s
  | .chSend g rel a => Sys2Proof.Machine.execChSend g rel a s
  | .chRecv g a => Sys2Proof.Machine.execChRecv g a s
  | .chRed g rel a => Sys2Proof.Machine.execChRed g rel a s
  | .chBcast g rel a => Sys2Proof.Machine.execChBcast g rel a s
  | .chAgat g rel a => Sys2Proof.Machine.execChAgat g rel a s
  | .chWait g ev acq a b => Sys2Proof.Machine.execChWait g ev acq a b s
  | .chQ g d b => Sys2Proof.Machine.execChQ g d b s
  | .atQ g arr rel acc a b => Sys2Proof.Machine.execAtQ g arr rel acc a b s
  | .kvApp g cw rel a b => Sys2Proof.Machine.execKvApp g cw rel a b s
  | .pmRd g a b => Sys2Proof.Machine.execPmRd g a b s
  | .pmWrSeq g a => Sys2Proof.Machine.execPmWrSeq g a s
  | .pmWrUnit g a => Sys2Proof.Machine.execPmWrUnit g a s
  | .pmRebal g cw a b => Sys2Proof.Machine.execPmRebal g cw a b s
  | .pxHash g d b => Sys2Proof.Machine.execPxHash g d b s
  | .pxLook g d b => Sys2Proof.Machine.execPxLook g d b s
  | .pxPin g d b => Sys2Proof.Machine.execPxPin g d b s
  | .pxUnpin g a b => Sys2Proof.Machine.execPxUnpin g a b s
  | .pxIns g d b => Sys2Proof.Machine.execPxIns g d b s
  | .tierIn g e cw a b => Sys2Proof.Machine.execTierIn g e cw a b s
  | .tmMatch g bk d b => Sys2Proof.Machine.execTmMatch g bk d b s
  | .tmMerge g bk fin a b => Sys2Proof.Machine.execTmMerge g bk fin a b s
  | .tmUnmrg g bk a b => Sys2Proof.Machine.execTmUnmrg g bk a b s
  | .tmFree g a => Sys2Proof.Machine.execTmFree g a s
  | .tmSpill g a b => Sys2Proof.Machine.execTmSpill g a b s
  | .tmFill g d b => Sys2Proof.Machine.execTmFill g d b s
  | .br p n off => Sys2Proof.Machine.execBr p n off s
  | .jal p n off => Sys2Proof.Machine.execJal p n off s
  | .jr g d a b => Sys2Proof.Machine.execJr g d a b s
  | .loop c off => Sys2Proof.Machine.execLoop c off s
  | .lset g c a => Sys2Proof.Machine.execLset g c a s
  | .pand pd pa pb => Sys2Proof.Machine.execPand pd pa pb s
  | .por pd pa pb => Sys2Proof.Machine.execPor pd pa pb s
  | .pxor pd pa pb => Sys2Proof.Machine.execPxor pd pa pb s
  | .pandn pd pa pb => Sys2Proof.Machine.execPandn pd pa pb s
  | .pnot pd pa => Sys2Proof.Machine.execPnot pd pa s
  | .pany pd pa pb => Sys2Proof.Machine.execPany pd pa pb s
  | .pall pd pa pb => Sys2Proof.Machine.execPall pd pa pb s
  | .pset pd v => Sys2Proof.Machine.execPset pd v s
  | .fmtSet g a b => Sys2Proof.Machine.execFmtSet g a b s
  | .fmtGet g d => Sys2Proof.Machine.execFmtGet g d s
  | .phase sc => Sys2Proof.Machine.execPhase sc s
  | .phin g d => Sys2Proof.Machine.execPhin g d s
  | .fence g l e => Sys2Proof.Machine.execFence g l e s
  | .barInit g a b => Sys2Proof.Machine.execBarInit g a b s
  | .barArr g a => Sys2Proof.Machine.execBarArr g a s
  | .barWait g a b => Sys2Proof.Machine.execBarWait g a b s
  | .waita g ge cb a b => Sys2Proof.Machine.execWaita g ge cb a b s
  | .tspawn g a b => Sys2Proof.Machine.execTspawn g a b s
  | .texit g => Sys2Proof.Machine.execTexit g s
  | .trap g a => Sys2Proof.Machine.execTrap g a s
  | .rfe next => Sys2Proof.Machine.execRfe next s
  | .fuse g f => Sys2Proof.Machine.execFuse g f s
  | .decpl g => Sys2Proof.Machine.execDecpl g s
  | .rejoin g => Sys2Proof.Machine.execRejoin g s
  | .prio g a => Sys2Proof.Machine.execPrio g a s
  | .sctPin g a b => Sys2Proof.Machine.execSctPin g a b s
  | .sctRel g w a => Sys2Proof.Machine.execSctRel g w a s
  | .halt g => Sys2Proof.Machine.execHalt g s
  | .commitComplete => Sys2Proof.Machine.execCommitComplete s
  | .loadDataArrival k poison => Sys2Proof.Machine.execLoadDataArrival k poison s
  | .groupAbortNotice gid => Sys2Proof.Machine.execGroupAbortNotice gid s
  | .phaseBudget => Sys2Proof.Machine.execPhaseBudget s
  | .lateTrapDelivery => Sys2Proof.Machine.execLateTrapDelivery s
  | .mmpFaultService found => Sys2Proof.Machine.execMmpFaultService found s
  | .pagerCompletion ticket => Sys2Proof.Machine.execPagerCompletion ticket s
  | .freezeLimit => Sys2Proof.Machine.execFreezeLimit s
  | .pageMigrationStart frame => Sys2Proof.Machine.execPageMigrationStart frame s
  | .pageMigrationEnd newFrame => Sys2Proof.Machine.execPageMigrationEnd newFrame s
  | .clearingComplete => Sys2Proof.Machine.execClearingComplete s
  | .poolLinkLost port => Sys2Proof.Machine.execPoolLinkLost port s
  | .poolPortRetrain port ok => Sys2Proof.Machine.execPoolPortRetrain port ok s
  | .hostPortDown => Sys2Proof.Machine.execHostPortDown s
  | .hostCxlMemWrite pa data => Sys2Proof.Machine.execHostCxlMemWrite pa data s
  | .copyCommandComplete e => Sys2Proof.Machine.execCopyCommandComplete e s
  | .copyCommandFault e why => Sys2Proof.Machine.execCopyCommandFault e why s
  | .matrixOpPerform => Sys2Proof.Machine.execMatrixOpPerform s
  | .mkatRun => Sys2Proof.Machine.execMkatRun s
  | .residencyLoadComplete idx => Sys2Proof.Machine.execResidencyLoadComplete idx s
  | .residencyLoadFail idx why => Sys2Proof.Machine.execResidencyLoadFail idx why s
  | .arrayError e => Sys2Proof.Machine.execArrayError e s
  | .compareModeRunEnd r => Sys2Proof.Machine.execCompareModeRunEnd r s
  | .flitCrcFail f => Sys2Proof.Machine.execFlitCrcFail f s
  | .linkTrainingResult l lanes => Sys2Proof.Machine.execLinkTrainingResult l lanes s
  | .linkTrainingTimeout l => Sys2Proof.Machine.execLinkTrainingTimeout l s
  | .packetRoute p => Sys2Proof.Machine.execPacketRoute p s
  | .multipathFallback p => Sys2Proof.Machine.execMultipathFallback p s
  | .fifowArrival l words => Sys2Proof.Machine.execFifowArrival l words s
  | .flow l on => Sys2Proof.Machine.execFlow l on s
  | .orderedPacketReceipt p => Sys2Proof.Machine.execOrderedPacketReceipt p s
  | .orderedAckReceipt node seq => Sys2Proof.Machine.execOrderedAckReceipt node seq s
  | .rtoExpiry node => Sys2Proof.Machine.execRtoExpiry node s
  | .fabtmoExpiry node => Sys2Proof.Machine.execFabtmoExpiry node s
  | .remoteReplyData k data => Sys2Proof.Machine.execRemoteReplyData k data s
  | .nakReceipt k access => Sys2Proof.Machine.execNakReceipt k access s
  | .openReceipt p => Sys2Proof.Machine.execOpenReceipt p s
  | .answerReceipt ctxid cn accepted => Sys2Proof.Machine.execAnswerReceipt ctxid cn accepted s
  | .connectionTimeout ctxid cn => Sys2Proof.Machine.execConnectionTimeout ctxid cn s
  | .autoOpen ctxid cn => Sys2Proof.Machine.execAutoOpen ctxid cn s
  | .brokenClose ctxid cn => Sys2Proof.Machine.execBrokenClose ctxid cn s
  | .putPacketLanding p len nt => Sys2Proof.Machine.execPutPacketLanding p len nt s
  | .messageAckReceipt ctxid cn seq mark => Sys2Proof.Machine.execMessageAckReceipt ctxid cn seq mark s
  | .redPacketApply p m => Sys2Proof.Machine.execRedPacketApply p m s
  | .getreqReceipt p => Sys2Proof.Machine.execGetreqReceipt p s
  | .getDataLanding ctxid cn seq poff data => Sys2Proof.Machine.execGetDataLanding ctxid cn seq poff data s
  | .collPacketReceipt p => Sys2Proof.Machine.execCollPacketReceipt p s
  | .sourceReadComplete ch => Sys2Proof.Machine.execSourceReadComplete ch s
  | .barrierArrival gid b => Sys2Proof.Machine.execBarrierArrival gid b s
  | .groupTableFill gid rec => Sys2Proof.Machine.execGroupTableFill gid rec s
  | .queryAtHolder q => Sys2Proof.Machine.execQueryAtHolder q s
  | .partialMerge q rank r => Sys2Proof.Machine.execPartialMerge q rank r s
  | .resultRecordWrite qid => Sys2Proof.Machine.execResultRecordWrite qid s
  | .staleReport qid => Sys2Proof.Machine.execStaleReport qid s
  | .attentionTimeout qid => Sys2Proof.Machine.execAttentionTimeout qid s
  | .appendAtHolder r => Sys2Proof.Machine.execAppendAtHolder r s
  | .appendComplete aid why => Sys2Proof.Machine.execAppendComplete aid why s
  | .pmtWriteAtMember e w => Sys2Proof.Machine.execPmtWriteAtMember e w s
  | .rebalanceQuery q => Sys2Proof.Machine.execRebalanceQuery q s
  | .rebalanceApply r => Sys2Proof.Machine.execRebalanceApply r s
  | .rebalanceComplete seqid why => Sys2Proof.Machine.execRebalanceComplete seqid why s
  | .unitCopyComplete seqid unit data => Sys2Proof.Machine.execUnitCopyComplete seqid unit data s
  | .tierInComplete e => Sys2Proof.Machine.execTierInComplete e s
  | .tierInFail e why => Sys2Proof.Machine.execTierInFail e why s
  | .tmCommandPerform => Sys2Proof.Machine.execTmCommandPerform s
  | .launchWordWrite n => Sys2Proof.Machine.execLaunchWordWrite n s
  | .dependenceWordWrite pa => Sys2Proof.Machine.execDependenceWordWrite pa s
  | .startTimeTest => Sys2Proof.Machine.execStartTimeTest s
  | .priorityAgeing => Sys2Proof.Machine.execPriorityAgeing s
  | .taskPlacement => Sys2Proof.Machine.execTaskPlacement s
  | .saveComplete => Sys2Proof.Machine.execSaveComplete s
  | .emergencyAreaDrain => Sys2Proof.Machine.execEmergencyAreaDrain s
  | .starveCountExpiry => Sys2Proof.Machine.execStarveCountExpiry s
  | .gangForm => Sys2Proof.Machine.execGangForm s
  | .gangRejoin => Sys2Proof.Machine.execGangRejoin s
  | .streamIdleExpiry id => Sys2Proof.Machine.execStreamIdleExpiry id s
  | .streamEvictionComplete id => Sys2Proof.Machine.execStreamEvictionComplete id s
  | .streamLoadComplete id => Sys2Proof.Machine.execStreamLoadComplete id s
  | .devtimeWrite v => Sys2Proof.Machine.execDevtimeWrite v s
  | .ppsEdge => Sys2Proof.Machine.execPpsEdge s
  | .devtimeSlewEnd => Sys2Proof.Machine.execDevtimeSlewEnd s
  | .ecclogClear => Sys2Proof.Machine.execEcclogClear s
  | .linklogClear => Sys2Proof.Machine.execLinklogClear s
  | .haltmaskClear k v => Sys2Proof.Machine.execHaltmaskClear k v s
  | .culletClear c => Sys2Proof.Machine.execCulletClear c s
  | .routecfgVerWrite ver => Sys2Proof.Machine.execRoutecfgVerWrite ver s
  | .routecfgDropClear => Sys2Proof.Machine.execRoutecfgDropClear s
  | .rtdatWrite v => Sys2Proof.Machine.execRtdatWrite v s
  | .sctcfgWrite v => Sys2Proof.Machine.execSctcfgWrite v s
  | .lwaddrWrite n v => Sys2Proof.Machine.execLwaddrWrite n v s
  | .hbmWordTransfer x => Sys2Proof.Machine.execHbmWordTransfer x s
  | .laneSwapComplete stack chan => Sys2Proof.Machine.execLaneSwapComplete stack chan s
  | .powerOnBoot r => Sys2Proof.Machine.execPowerOnBoot r s
  | .bootRecordClear cmd => Sys2Proof.Machine.execBootRecordClear cmd s
  | .voltageAlarm => Sys2Proof.Machine.execVoltageAlarm s
  | .clockAlarm => Sys2Proof.Machine.execClockAlarm s
  | .temperatureAlarm => Sys2Proof.Machine.execTemperatureAlarm s
  | .lidMeshAlarm => Sys2Proof.Machine.execLidMeshAlarm s
  | .mailboxNonceWrite nonce => Sys2Proof.Machine.execMailboxNonceWrite nonce s
  | .attestationReportReady => Sys2Proof.Machine.execAttestationReportReady s
  | .clockStepDown => Sys2Proof.Machine.execClockStepDown s
  | .clockStepUp => Sys2Proof.Machine.execClockStepUp s
  | .poolBackInvalidation pa => Sys2Proof.Machine.execPoolBackInvalidation pa s
  | .mmpServiceRequest r => Sys2Proof.Machine.execMmpServiceRequest r s
  | .hostPortRetrain ok => Sys2Proof.Machine.execHostPortRetrain ok s
  | .linkPartnerLost l => Sys2Proof.Machine.execLinkPartnerLost l s
  | .idleFlitReceipt l cls vc on => Sys2Proof.Machine.execIdleFlitReceipt l cls vc on s
  | .gixImageLoad die slot img => Sys2Proof.Machine.execGixImageLoad die slot img s

end Sys2Proof.Machine
end

