-- ==== Sys2Proof/Machine/Slots.lean ====
section
/-! DEFINITION. What a slot names before it runs: the operands whose literal it needs and the architectural
destinations that two slots of a group may not share (R31, R41). An event of a unit is no slot. -/

namespace Sys2Proof.Machine

/-- An architectural destination (R41). -/
inductive Dest where
  | s (r : Reg)
  | v (r : Reg)
  | p (r : Reg)
  | latch (n : LatchNo)
  | fifo (n : LinkNo)
  | lc (n : Fin 4)
  | m (n : Fin 8)
  /-- a field group of a shadow set (R211) -/
  | shadow (e : Fin 2) (f : Nat)
deriving DecidableEq, Repr

/-- The destination that a scalar slot's, or a vector slot's, D field names (R29). -/
def dstS : Dst → List Dest
  | .reg r => [.s r] | .latch n => [.latch n] | .fifo n => [.fifo n]
def dstV : Dst → List Dest
  | .reg r => [.v r] | .latch n => [.latch n] | .fifo n => [.fifo n]

/-- What enables a slot (R34): nothing, a uniform guard, a lane guard, or, for `vins`, the lane of the element that its
operand B names (R140). -/
inductive Enable where
  | none
  | uniform (g : Fin 16)
  | lanes (g : Fin 8)
  | element
deriving DecidableEq, Repr

/-- A value that a slot reads: a scalar or a vector operand, or a register that no operand code names (the data of a
store, a register group). -/
inductive Use where
  | s (x : Src)
  | v (x : Src)
  | sReg (r : Reg)
  | vReg (r : Reg)
deriving DecidableEq, Repr

/-- The registers of a group of k, and the same as values read (R369). -/
def groupList (r : Reg) (k : Fin 8) : List Reg := (List.range k.val).map (fun i => Fin.ofNat 32 (r.val + i))
def groupRegs (r : Reg) (k : Fin 8) : List Use := (groupList r k).map .vReg

/-- A slot's guard and what it reads, its operands in the order in which they are read (R33). `vpf` pops and waits for
nothing (R176). -/
def slotUses : Instr → Enable × List Use
  | .add g _ a b => (.uniform g, [.s a, .s b])
  | .sub g _ a b => (.uniform g, [.s a, .s b])
  | .mul g _ a b => (.uniform g, [.s a, .s b])
  | .mulh g _ a b => (.uniform g, [.s a, .s b])
  | .mulhu g _ a b => (.uniform g, [.s a, .s b])
  | .div g _ a b => (.uniform g, [.s a, .s b])
  | .divu g _ a b => (.uniform g, [.s a, .s b])
  | .rem g _ a b => (.uniform g, [.s a, .s b])
  | .remu g _ a b => (.uniform g, [.s a, .s b])
  | .and g _ a b => (.uniform g, [.s a, .s b])
  | .or g _ a b => (.uniform g, [.s a, .s b])
  | .xor g _ a b => (.uniform g, [.s a, .s b])
  | .andn g _ a b => (.uniform g, [.s a, .s b])
  | .shl g _ a b => (.uniform g, [.s a, .s b])
  | .shr g _ a b => (.uniform g, [.s a, .s b])
  | .sar g _ a b => (.uniform g, [.s a, .s b])
  | .rotl g _ a b => (.uniform g, [.s a, .s b])
  | .min g _ a b => (.uniform g, [.s a, .s b])
  | .max g _ a b => (.uniform g, [.s a, .s b])
  | .minu g _ a b => (.uniform g, [.s a, .s b])
  | .maxu g _ a b => (.uniform g, [.s a, .s b])
  | .addsat g _ a b => (.uniform g, [.s a, .s b])
  | .clz g _ a => (.uniform g, [.s a])
  | .ctz g _ a => (.uniform g, [.s a])
  | .popc g _ a => (.uniform g, [.s a])
  | .bfx g _ a b => (.uniform g, [.s a, .s b])
  | .bfi g _ a b => (.uniform g, [.s a, .s b])
  | .sext g _ a b => (.uniform g, [.s a, .s b])
  | .ceq g _ a b => (.uniform g, [.s a, .s b])
  | .cne g _ a b => (.uniform g, [.s a, .s b])
  | .clt g _ a b => (.uniform g, [.s a, .s b])
  | .cltu g _ a b => (.uniform g, [.s a, .s b])
  | .cle g _ a b => (.uniform g, [.s a, .s b])
  | .cleu g _ a b => (.uniform g, [.s a, .s b])
  | .sel _ _ a b => (.none, [.s a, .s b])
  | .mov g _ a => (.uniform g, [.s a])
  | .ldb g _ a b => (.uniform g, [.s a, .s b])
  | .ldh g _ a b => (.uniform g, [.s a, .s b])
  | .ldw g _ a b => (.uniform g, [.s a, .s b])
  | .ldd g _ a b => (.uniform g, [.s a, .s b])
  | .stb g d a b => (.uniform g, [.s a, .s b, .sReg d])
  | .sth g d a b => (.uniform g, [.s a, .s b, .sReg d])
  | .stw g d a b => (.uniform g, [.s a, .s b, .sReg d])
  | .std g d a b => (.uniform g, [.s a, .s b, .sReg d])
  | .ldc g _ a b => (.uniform g, [.s a, .s b])
  | .ldro g _ a b => (.uniform g, [.s a, .s b])
  | .ldpm g _ a b => (.uniform g, [.s a, .s b])
  | .stpm g d a b => (.uniform g, [.s a, .s b, .sReg d])
  | .atomAdd _ _ _ a b => (.none, [.s a, .s b])
  | .atomMin _ _ _ a b => (.none, [.s a, .s b])
  | .atomMax _ _ _ a b => (.none, [.s a, .s b])
  | .atomAnd _ _ _ a b => (.none, [.s a, .s b])
  | .atomOr _ _ _ a b => (.none, [.s a, .s b])
  | .atomXor _ _ _ a b => (.none, [.s a, .s b])
  | .atomXchg _ _ _ a b => (.none, [.s a, .s b])
  | .atomCas _ _ _ a b => (.none, [.s a, .s b])
  | .sysRd g _ a => (.uniform g, [.s a])
  | .sysWr g a b => (.uniform g, [.s a, .s b])
  | .timeRd g _ _ => (.uniform g, [])
  | .roinv g => (.uniform g, [])
  | .tlbInv g a b => (.uniform g, [.s a, .s b])
  | .mset g _ a => (.uniform g, [.s a])
  | .msetMxstat g a => (.uniform g, [.s a])
  | .mget g _ _ => (.uniform g, [])
  | .mgetMxstat g _ => (.uniform g, [])
  | .vadd g _ _ a b => (.lanes g, [.v a, .v b])
  | .vsub g _ _ a b => (.lanes g, [.v a, .v b])
  | .vmul g _ _ a b => (.lanes g, [.v a, .v b])
  | .vfma g _ _ a b => (.lanes g, [.v a, .v b])
  | .vfms g _ _ a b => (.lanes g, [.v a, .v b])
  | .vfnma g _ _ a b => (.lanes g, [.v a, .v b])
  | .vmin g _ _ a b => (.lanes g, [.v a, .v b])
  | .vmax g _ _ a b => (.lanes g, [.v a, .v b])
  | .vabs g _ _ a => (.lanes g, [.v a])
  | .vneg g _ _ a => (.lanes g, [.v a])
  | .vdiv g _ _ a b => (.lanes g, [.v a, .v b])
  | .vsqrt g _ _ a => (.lanes g, [.v a])
  | .vrcp g _ _ a => (.lanes g, [.v a])
  | .vrsqrt g _ _ a => (.lanes g, [.v a])
  | .vexp2 g _ _ a => (.lanes g, [.v a])
  | .vlog2 g _ _ a => (.lanes g, [.v a])
  | .vand g _ _ a b => (.lanes g, [.v a, .v b])
  | .vor g _ _ a b => (.lanes g, [.v a, .v b])
  | .vxor g _ _ a b => (.lanes g, [.v a, .v b])
  | .vshl g _ _ a b => (.lanes g, [.v a, .v b])
  | .vshr g _ _ a b => (.lanes g, [.v a, .v b])
  | .vsar g _ _ a b => (.lanes g, [.v a, .v b])
  | .vmulh g _ _ a b => (.lanes g, [.v a, .v b])
  | .vdot4 g _ _ a b => (.lanes g, [.v a, .v b])
  | .vceq g _ _ a b => (.lanes g, [.v a, .v b])
  | .vcne g _ _ a b => (.lanes g, [.v a, .v b])
  | .vclt g _ _ a b => (.lanes g, [.v a, .v b])
  | .vcle g _ _ a b => (.lanes g, [.v a, .v b])
  | .vcun g _ _ a b => (.lanes g, [.v a, .v b])
  | .vsel _ _ a b => (.none, [.v a, .v b])
  | .vmov g _ _ a => (.lanes g, [.v a])
  | .vbcast g _ _ a => (.lanes g, [.s a])
  | .vext g _ _ a b => (.lanes g, [.v a, .s b])
  | .vins _ _ _ a b => (.element, [.s a, .s b])
  | .vperm g _ _ a b => (.lanes g, [.v a, .v b])
  | .vrot g _ _ a b => (.lanes g, [.v a, .s b])
  | .vred g _ _ a _ => (.lanes g, [.v a])
  | .vscan g _ _ a _ => (.lanes g, [.v a])
  | .vsticky g _ _ => (.lanes g, [])
  | .vstclr g _ _ => (.lanes g, [])
  | .vcvt g _ _ a _ _ => (.lanes g, [.v a])
  | .vqnt _ _ a _ => (.none, [.v a])
  | .vdqn _ _ a _ => (.none, [.v a])
  | .vrnd g _ _ a _ => (.lanes g, [.v a])
  | .vscl g _ _ a b => (.lanes g, [.v a, .v b])
  | .vsp2Enc g _ _ a _ => (.lanes g, [.v a])
  | .vsp2Dec g _ _ a _ => (.lanes g, [.v a])
  | .vpk g _ _ a b => (.lanes g, [.v a, .v b])
  | .vupk g _ _ a _ _ _ => (.lanes g, [.v a])
  | .vld g _ _ a b => (.lanes g, [.s a, .s b])
  | .vst g _ d a b => (.lanes g, [.s a, .s b, .vReg d])
  | .vlda g _ _ a b => (.lanes g, [.s a, .s b])
  | .vsta g d a b => (.lanes g, [.s a, .s b, .vReg d])
  | .vldc g _ a b => (.lanes g, [.s a, .s b])
  | .vstc g d a b => (.lanes g, [.s a, .s b, .vReg d])
  | .vgat g _ _ a b => (.lanes g, [.v a, .s b])
  | .vsct g d a b => (.lanes g, [.v a, .s b, .vReg d])
  | .vpf _ _ _ _ => (.none, [])
  | .vsmrg _ a k => (.none, groupRegs a k)
  | .vlgsz g _ _ a _ => (.lanes g, [.v a])
  | .mcall _ => (.none, [])
  | .mret => (.none, [])
  | .mloop _ _ => (.none, [])
  | .mend _ _ => (.none, [])
  | .mlda _ _ => (.none, [])
  | .mmac _ _ _ _ => (.none, [])
  | .mzero _ => (.none, [])
  | .mdrain _ _ _ _ => (.none, [])
  | .mhada _ _ _ => (.none, [])
  | .mkat _ => (.none, [])
  | .madd _ _ _ _ => (.none, [])
  | .mprogSet _ _ _ => (.none, [])
  | .mprogClr _ => (.none, [])
  | .msync => (.none, [])
  | .cpSrc g _ _ a b => (.uniform g, [.s a, .s b])
  | .cpDst g _ _ a b => (.uniform g, [.s a, .s b])
  | .cpShp g _ _ b => (.uniform g, [.s b])
  | .cpFmt g _ b => (.uniform g, [.s b])
  | .cpFmtCtl g _ b => (.uniform g, [.s b])
  | .cpGo g _ _ _ _ _ a b => (.uniform g, [.s a, .s b])
  | .cpFill g _ _ b => (.uniform g, [.s b])
  | .cpStat g _ _ _ => (.uniform g, [])
  | .cpCancel g _ b => (.uniform g, [.s b])
  | .cpTdef g a b => (.uniform g, [.s a, .s b])
  | .resAlloc g _ b => (.uniform g, [.s b])
  | .resLoad g a b => (.uniform g, [.s a, .s b])
  | .resPin g a => (.uniform g, [.s a])
  | .resUnpin g _ a => (.uniform g, [.s a])
  | .resRevoke g a => (.uniform g, [.s a])
  | .resReload g a => (.uniform g, [.s a])
  | .resQ g _ b => (.uniform g, [.s b])
  | .rmaConn g a b => (.uniform g, [.s a, .s b])
  | .rmaConnClose g a => (.uniform g, [.s a])
  | .rmaPut g _ a b => (.uniform g, [.s a, .s b])
  | .rmaGet g _ _ a b => (.uniform g, [.s a, .s b])
  | .rmaRed g _ _ a b => (.uniform g, [.s a, .s b])
  | .rmaStat g _ b => (.uniform g, [.s b])
  | .chSend g _ a => (.uniform g, [.s a])
  | .chRecv g a => (.uniform g, [.s a])
  | .chRed g _ a => (.uniform g, [.s a])
  | .chBcast g _ a => (.uniform g, [.s a])
  | .chAgat g _ a => (.uniform g, [.s a])
  | .chWait g _ _ a b => (.uniform g, [.s a, .s b])
  | .chQ g _ b => (.uniform g, [.s b])
  | .atQ g _ _ _ a b => (.uniform g, [.s a, .s b])
  | .kvApp g _ _ a b => (.uniform g, [.s a, .s b])
  | .pmRd g a b => (.uniform g, [.s a, .s b])
  | .pmWrSeq g a => (.uniform g, [.s a])
  | .pmWrUnit g a => (.uniform g, [.s a])
  | .pmRebal g _ a b => (.uniform g, [.s a, .s b])
  | .pxHash g _ b => (.uniform g, [.s b])
  | .pxLook g _ b => (.uniform g, [.s b])
  | .pxPin g _ b => (.uniform g, [.s b])
  | .pxUnpin g a b => (.uniform g, [.s a, .s b])
  | .pxIns g _ b => (.uniform g, [.s b])
  | .tierIn g _ _ a b => (.uniform g, [.s a, .s b])
  | .tmMatch g _ _ b => (.uniform g, [.s b])
  | .tmMerge g _ _ a b => (.uniform g, [.s a, .s b])
  | .tmUnmrg g _ a b => (.uniform g, [.s a, .s b])
  | .tmFree g a => (.uniform g, [.s a])
  | .tmSpill g a b => (.uniform g, [.s a, .s b])
  | .tmFill g _ b => (.uniform g, [.s b])
  | .br _ _ _ => (.none, [])
  | .jal _ _ _ => (.none, [])
  | .jr g _ a b => (.uniform g, [.s a, .s b])
  | .loop _ _ => (.none, [])
  | .lset g _ a => (.uniform g, [.s a])
  | .pand _ _ _ => (.none, [])
  | .por _ _ _ => (.none, [])
  | .pxor _ _ _ => (.none, [])
  | .pandn _ _ _ => (.none, [])
  | .pnot _ _ => (.none, [])
  | .pany _ _ _ => (.none, [])
  | .pall _ _ _ => (.none, [])
  | .pset _ _ => (.none, [])
  | .fmtSet g a b => (.uniform g, [.s a, .s b])
  | .fmtGet g _ => (.uniform g, [])
  | .phase _ => (.none, [])
  | .phin g _ => (.uniform g, [])
  | .fence g _ _ => (.uniform g, [])
  | .barInit g a b => (.uniform g, [.s a, .s b])
  | .barArr g a => (.uniform g, [.s a])
  | .barWait g a b => (.uniform g, [.s a, .s b])
  | .waita g _ _ a b => (.uniform g, [.s a, .s b])
  | .tspawn g a b => (.uniform g, [.s a, .s b])
  | .texit g => (.uniform g, [])
  | .trap g a => (.uniform g, [.s a])
  | .rfe _ => (.none, [])
  | .fuse g _ => (.uniform g, [])
  | .decpl g => (.uniform g, [])
  | .rejoin g => (.uniform g, [])
  | .prio g a => (.uniform g, [.s a])
  | .sctPin g a b => (.uniform g, [.s a, .s b])
  | .sctRel g _ a => (.uniform g, [.s a])
  | .halt g => (.uniform g, [])
  | .commitComplete | .loadDataArrival _ _ | .groupAbortNotice _ | .phaseBudget | .lateTrapDelivery
  | .mmpFaultService _ | .pagerCompletion _ | .freezeLimit | .pageMigrationStart _ | .pageMigrationEnd _
  | .clearingComplete | .poolLinkLost _ | .poolPortRetrain _ _ | .hostPortDown | .hostCxlMemWrite _ _
  | .copyCommandComplete _ | .copyCommandFault _ _ | .matrixOpPerform | .mkatRun | .residencyLoadComplete _
  | .residencyLoadFail _ _ | .arrayError _ | .compareModeRunEnd _ | .flitCrcFail _ | .linkTrainingResult _ _
  | .linkTrainingTimeout _ | .packetRoute _ | .multipathFallback _ | .fifowArrival _ _ | .flow _ _
  | .orderedPacketReceipt _ | .orderedAckReceipt _ _ | .rtoExpiry _ | .fabtmoExpiry _ | .remoteReplyData _ _
  | .nakReceipt _ _ | .openReceipt _ | .answerReceipt _ _ _ | .connectionTimeout _ _ | .autoOpen _ _
  | .brokenClose _ _ | .putPacketLanding _ _ _ | .messageAckReceipt _ _ _ _ | .redPacketApply _ _
  | .getreqReceipt _ | .getDataLanding _ _ _ _ _ | .collPacketReceipt _ | .sourceReadComplete _
  | .barrierArrival _ _ | .groupTableFill _ _ | .queryAtHolder _ | .partialMerge _ _ _
  | .resultRecordWrite _ | .staleReport _ | .attentionTimeout _ | .appendAtHolder _ | .appendComplete _ _
  | .pmtWriteAtMember _ _ | .rebalanceQuery _ | .rebalanceApply _ | .rebalanceComplete _ _
  | .unitCopyComplete _ _ _ | .tierInComplete _ | .tierInFail _ _ | .tmCommandPerform | .launchWordWrite _
  | .dependenceWordWrite _ | .startTimeTest | .priorityAgeing | .taskPlacement | .saveComplete
  | .emergencyAreaDrain | .starveCountExpiry | .gangForm | .gangRejoin | .streamIdleExpiry _
  | .streamEvictionComplete _ | .streamLoadComplete _ | .devtimeWrite _ | .ppsEdge | .devtimeSlewEnd
  | .ecclogClear | .linklogClear | .haltmaskClear _ _ | .culletClear _ | .routecfgVerWrite _
  | .routecfgDropClear | .rtdatWrite _ | .sctcfgWrite _ | .lwaddrWrite _ _ | .hbmWordTransfer _
  | .laneSwapComplete _ _ | .powerOnBoot _ | .bootRecordClear _ | .voltageAlarm | .clockAlarm
  | .temperatureAlarm | .lidMeshAlarm | .mailboxNonceWrite _ | .attestationReportReady | .clockStepDown
  | .clockStepUp | .poolBackInvalidation _ | .mmpServiceRequest _ | .hostPortRetrain _ | .linkPartnerLost _
  | .idleFlitReceipt _ _ _ _ | .gixImageLoad _ _ _ => (.none, [])

/-- The operands of a slot (R33); those of `vpf` are named too, since a literal must be there (R31). -/
def slotSrcs (i : Instr) : List Src :=
  match i with
  | .vpf _ _ a b => [a, b]
  | _ => (slotUses i).2.filterMap (fun u => match u with
    | .s x | .v x => some x
    | .sReg _ | .vReg _ => none)

/-- The destinations that a slot writes, implicit ones included (R41). -/
def slotDests : Instr → List Dest
  | .add _ d _ _ => dstS d
  | .sub _ d _ _ => dstS d
  | .mul _ d _ _ => dstS d
  | .mulh _ d _ _ => dstS d
  | .mulhu _ d _ _ => dstS d
  | .div _ d _ _ => dstS d
  | .divu _ d _ _ => dstS d
  | .rem _ d _ _ => dstS d
  | .remu _ d _ _ => dstS d
  | .and _ d _ _ => dstS d
  | .or _ d _ _ => dstS d
  | .xor _ d _ _ => dstS d
  | .andn _ d _ _ => dstS d
  | .shl _ d _ _ => dstS d
  | .shr _ d _ _ => dstS d
  | .sar _ d _ _ => dstS d
  | .rotl _ d _ _ => dstS d
  | .min _ d _ _ => dstS d
  | .max _ d _ _ => dstS d
  | .minu _ d _ _ => dstS d
  | .maxu _ d _ _ => dstS d
  | .addsat _ d _ _ => dstS d
  | .clz _ d _ => dstS d
  | .ctz _ d _ => dstS d
  | .popc _ d _ => dstS d
  | .bfx _ d _ _ => dstS d
  | .bfi _ d _ _ => [.s d]
  | .sext _ d _ _ => dstS d
  | .ceq _ p _ _ => [.p p]
  | .cne _ p _ _ => [.p p]
  | .clt _ p _ _ => [.p p]
  | .cltu _ p _ _ => [.p p]
  | .cle _ p _ _ => [.p p]
  | .cleu _ p _ _ => [.p p]
  | .sel _ d _ _ => dstS d
  | .mov _ d _ => dstS d
  | .ldb _ d _ _ => dstS d
  | .ldh _ d _ _ => dstS d
  | .ldw _ d _ _ => dstS d
  | .ldd _ d _ _ => dstS d
  | .stb _ _ _ _ => []
  | .sth _ _ _ _ => []
  | .stw _ _ _ _ => []
  | .std _ _ _ _ => []
  | .ldc _ d _ _ => dstS d
  | .ldro _ d _ _ => dstS d
  | .ldpm _ d _ _ => dstS d
  | .stpm _ _ _ _ => []
  | .atomAdd _ _ d _ _ => dstS d
  | .atomMin _ _ d _ _ => dstS d
  | .atomMax _ _ d _ _ => dstS d
  | .atomAnd _ _ d _ _ => dstS d
  | .atomOr _ _ d _ _ => dstS d
  | .atomXor _ _ d _ _ => dstS d
  | .atomXchg _ _ d _ _ => dstS d
  | .atomCas _ _ d _ _ => [.s d]
  | .sysRd _ d _ => dstS d
  | .sysWr _ _ _ => []
  | .timeRd _ d _ => dstS d
  | .roinv _ => []
  | .tlbInv _ _ _ => []
  | .mset _ n _ => [.m n]
  | .msetMxstat _ _ => []
  | .mget _ d _ => dstS d
  | .mgetMxstat _ d => dstS d
  | .vadd _ _ d _ _ => dstV d
  | .vsub _ _ d _ _ => dstV d
  | .vmul _ _ d _ _ => dstV d
  | .vfma _ _ d _ _ => [.v d]
  | .vfms _ _ d _ _ => [.v d]
  | .vfnma _ _ d _ _ => [.v d]
  | .vmin _ _ d _ _ => dstV d
  | .vmax _ _ d _ _ => dstV d
  | .vabs _ _ d _ => dstV d
  | .vneg _ _ d _ => dstV d
  | .vdiv _ _ d _ _ => dstV d
  | .vsqrt _ _ d _ => dstV d
  | .vrcp _ _ d _ => dstV d
  | .vrsqrt _ _ d _ => dstV d
  | .vexp2 _ _ d _ => dstV d
  | .vlog2 _ _ d _ => dstV d
  | .vand _ _ d _ _ => dstV d
  | .vor _ _ d _ _ => dstV d
  | .vxor _ _ d _ _ => dstV d
  | .vshl _ _ d _ _ => dstV d
  | .vshr _ _ d _ _ => dstV d
  | .vsar _ _ d _ _ => dstV d
  | .vmulh _ _ d _ _ => dstV d
  | .vdot4 _ _ d _ _ => [.v d]
  | .vceq _ _ p _ _ => [.p p]
  | .vcne _ _ p _ _ => [.p p]
  | .vclt _ _ p _ _ => [.p p]
  | .vcle _ _ p _ _ => [.p p]
  | .vcun _ _ p _ _ => [.p p]
  | .vsel _ d _ _ => dstV d
  | .vmov _ _ d _ => dstV d
  | .vbcast _ _ d _ => dstV d
  | .vext _ _ d _ _ => dstS d
  | .vins _ _ d _ _ => [.v d]
  | .vperm _ _ d _ _ => dstV d
  | .vrot _ _ d _ _ => dstV d
  | .vred _ _ d _ _ => dstV d
  | .vscan _ _ d _ _ => dstV d
  | .vsticky _ _ d => dstV d
  | .vstclr _ _ _ => []
  | .vcvt _ _ d _ _ _ => dstV d
  | .vqnt _ d _ _ => dstV d
  | .vdqn _ d _ _ => dstV d
  | .vrnd _ _ d _ _ => dstV d
  | .vscl _ _ d _ _ => dstV d
  | .vsp2Enc _ _ d _ _ => dstV d
  | .vsp2Dec _ _ d _ _ => dstV d
  | .vpk _ _ d _ _ => dstV d
  | .vupk _ _ d _ _ _ _ => dstV d
  | .vld _ _ d _ _ => dstV d
  | .vst _ _ _ _ _ => []
  | .vlda _ _ d _ _ => dstV d
  | .vsta _ _ _ _ => []
  | .vldc _ d _ _ => dstV d
  | .vstc _ _ _ _ => []
  | .vgat _ _ d _ _ => dstV d
  | .vsct _ _ _ _ => []
  | .vpf _ _ _ _ => []
  | .vsmrg d _ k => (groupList d k).map .v
  | .vlgsz _ _ d _ _ => [.v d]
  | .mcall _ => []
  | .mret => []
  | .mloop _ _ => []
  | .mend _ _ => []
  | .mlda _ _ => []
  | .mmac _ _ _ _ => []
  | .mzero _ => []
  | .mdrain _ _ _ _ => []
  | .mhada _ _ _ => []
  | .mkat _ => []
  | .madd a _ _ _ => [.m a]
  | .mprogSet _ _ _ => []
  | .mprogClr _ => []
  | .msync => []
  | .cpSrc _ e hi _ _ => if hi then [.shadow e 2] else [.shadow e 0, .shadow e 1, .shadow e 2]
  | .cpDst _ e hi _ _ => if hi then [.shadow e 4] else [.shadow e 3, .shadow e 4]
  | .cpShp _ e hi _ => if hi then [.shadow e 6] else [.shadow e 5, .shadow e 6]
  | .cpFmt _ e _ => [.shadow e 7]
  | .cpFmtCtl _ e _ => [.shadow e 8]
  | .cpGo _ _ _ _ _ _ _ _ => []
  | .cpFill _ e _ _ => [.shadow e 9]
  | .cpStat _ _ _ d => [.s d]
  | .cpCancel _ _ _ => []
  | .cpTdef _ _ _ => []
  | .resAlloc _ d _ => [.s d]
  | .resLoad _ _ _ => []
  | .resPin _ _ => []
  | .resUnpin _ _ _ => []
  | .resRevoke _ _ => []
  | .resReload _ _ => []
  | .resQ _ d _ => [.s d]
  | .rmaConn _ _ _ => []
  | .rmaConnClose _ _ => []
  | .rmaPut _ _ _ _ => []
  | .rmaGet _ _ _ _ _ => []
  | .rmaRed _ _ _ _ _ => []
  | .rmaStat _ d _ => [.s d]
  | .chSend _ _ _ => []
  | .chRecv _ _ => []
  | .chRed _ _ _ => []
  | .chBcast _ _ _ => []
  | .chAgat _ _ _ => []
  | .chWait _ _ _ _ _ => []
  | .chQ _ d _ => [.s d]
  | .atQ _ _ _ _ _ _ => []
  | .kvApp _ _ _ _ _ => []
  | .pmRd _ _ _ => []
  | .pmWrSeq _ _ => []
  | .pmWrUnit _ _ => []
  | .pmRebal _ _ _ _ => []
  | .pxHash _ d _ => [.s d]
  | .pxLook _ d _ => [.s d]
  | .pxPin _ d _ => [.s d]
  | .pxUnpin _ _ _ => []
  | .pxIns _ d _ => [.s d]
  | .tierIn _ _ _ _ _ => []
  | .tmMatch _ _ d _ => [.s d]
  | .tmMerge _ _ _ _ _ => []
  | .tmUnmrg _ _ _ _ => []
  | .tmFree _ _ => []
  | .tmSpill _ _ _ => []
  | .tmFill _ d _ => [.s d]
  | .br _ _ _ => []
  | .jal _ _ _ => [.s 30]
  | .jr _ d _ _ => if d = 0 then [] else [.s d]
  | .loop c _ => [.lc c]
  | .lset _ c _ => [.lc c]
  | .pand pd _ _ => [.p pd]
  | .por pd _ _ => [.p pd]
  | .pxor pd _ _ => [.p pd]
  | .pandn pd _ _ => [.p pd]
  | .pnot pd _ => [.p pd]
  | .pany pd _ _ => [.p pd]
  | .pall pd _ _ => [.p pd]
  | .pset pd _ => [.p pd]
  | .fmtSet _ _ _ => []
  | .fmtGet _ d => dstS d
  | .phase _ => []
  | .phin _ d => dstS d
  | .fence _ _ _ => []
  | .barInit _ _ _ => []
  | .barArr _ _ => []
  | .barWait _ _ _ => []
  | .waita _ _ _ _ _ => []
  | .tspawn _ _ _ => []
  | .texit _ => []
  | .trap _ _ => []
  | .rfe _ => []
  | .fuse _ _ => []
  | .decpl _ => []
  | .rejoin _ => []
  | .prio _ _ => []
  | .sctPin _ _ _ => []
  | .sctRel _ _ _ => []
  | .halt _ => []
  | .commitComplete | .loadDataArrival _ _ | .groupAbortNotice _ | .phaseBudget | .lateTrapDelivery
  | .mmpFaultService _ | .pagerCompletion _ | .freezeLimit | .pageMigrationStart _ | .pageMigrationEnd _
  | .clearingComplete | .poolLinkLost _ | .poolPortRetrain _ _ | .hostPortDown | .hostCxlMemWrite _ _
  | .copyCommandComplete _ | .copyCommandFault _ _ | .matrixOpPerform | .mkatRun | .residencyLoadComplete _
  | .residencyLoadFail _ _ | .arrayError _ | .compareModeRunEnd _ | .flitCrcFail _ | .linkTrainingResult _ _
  | .linkTrainingTimeout _ | .packetRoute _ | .multipathFallback _ | .fifowArrival _ _ | .flow _ _
  | .orderedPacketReceipt _ | .orderedAckReceipt _ _ | .rtoExpiry _ | .fabtmoExpiry _ | .remoteReplyData _ _
  | .nakReceipt _ _ | .openReceipt _ | .answerReceipt _ _ _ | .connectionTimeout _ _ | .autoOpen _ _
  | .brokenClose _ _ | .putPacketLanding _ _ _ | .messageAckReceipt _ _ _ _ | .redPacketApply _ _
  | .getreqReceipt _ | .getDataLanding _ _ _ _ _ | .collPacketReceipt _ | .sourceReadComplete _
  | .barrierArrival _ _ | .groupTableFill _ _ | .queryAtHolder _ | .partialMerge _ _ _
  | .resultRecordWrite _ | .staleReport _ | .attentionTimeout _ | .appendAtHolder _ | .appendComplete _ _
  | .pmtWriteAtMember _ _ | .rebalanceQuery _ | .rebalanceApply _ | .rebalanceComplete _ _
  | .unitCopyComplete _ _ _ | .tierInComplete _ | .tierInFail _ _ | .tmCommandPerform | .launchWordWrite _
  | .dependenceWordWrite _ | .startTimeTest | .priorityAgeing | .taskPlacement | .saveComplete
  | .emergencyAreaDrain | .starveCountExpiry | .gangForm | .gangRejoin | .streamIdleExpiry _
  | .streamEvictionComplete _ | .streamLoadComplete _ | .devtimeWrite _ | .ppsEdge | .devtimeSlewEnd
  | .ecclogClear | .linklogClear | .haltmaskClear _ _ | .culletClear _ | .routecfgVerWrite _
  | .routecfgDropClear | .rtdatWrite _ | .sctcfgWrite _ | .lwaddrWrite _ _ | .hbmWordTransfer _
  | .laneSwapComplete _ _ | .powerOnBoot _ | .bootRecordClear _ | .voltageAlarm | .clockAlarm
  | .temperatureAlarm | .lidMeshAlarm | .mailboxNonceWrite _ | .attestationReportReady | .clockStepDown
  | .clockStepUp | .poolBackInvalidation _ | .mmpServiceRequest _ | .hostPortRetrain _ | .linkPartnerLost _
  | .idleFlitReceipt _ _ _ _ | .gixImageLoad _ _ _ => []

/-- The step is an event of a unit or of the outside, not a slot of a program. -/
def isEvent : Instr → Bool
  | .add _ _ _ _ | .sub _ _ _ _ | .mul _ _ _ _ | .mulh _ _ _ _ | .mulhu _ _ _ _ | .div _ _ _ _
  | .divu _ _ _ _ | .rem _ _ _ _ | .remu _ _ _ _ | .and _ _ _ _ | .or _ _ _ _ | .xor _ _ _ _ | .andn _ _ _ _
  | .shl _ _ _ _ | .shr _ _ _ _ | .sar _ _ _ _ | .rotl _ _ _ _ | .min _ _ _ _ | .max _ _ _ _ | .minu _ _ _ _
  | .maxu _ _ _ _ | .addsat _ _ _ _ | .clz _ _ _ | .ctz _ _ _ | .popc _ _ _ | .bfx _ _ _ _ | .bfi _ _ _ _
  | .sext _ _ _ _ | .ceq _ _ _ _ | .cne _ _ _ _ | .clt _ _ _ _ | .cltu _ _ _ _ | .cle _ _ _ _
  | .cleu _ _ _ _ | .sel _ _ _ _ | .mov _ _ _ | .ldb _ _ _ _ | .ldh _ _ _ _ | .ldw _ _ _ _ | .ldd _ _ _ _
  | .stb _ _ _ _ | .sth _ _ _ _ | .stw _ _ _ _ | .std _ _ _ _ | .ldc _ _ _ _ | .ldro _ _ _ _ | .ldpm _ _ _ _
  | .stpm _ _ _ _ | .atomAdd _ _ _ _ _ | .atomMin _ _ _ _ _ | .atomMax _ _ _ _ _ | .atomAnd _ _ _ _ _
  | .atomOr _ _ _ _ _ | .atomXor _ _ _ _ _ | .atomXchg _ _ _ _ _ | .atomCas _ _ _ _ _ | .sysRd _ _ _
  | .sysWr _ _ _ | .timeRd _ _ _ | .roinv _ | .tlbInv _ _ _ | .mset _ _ _ | .msetMxstat _ _ | .mget _ _ _
  | .mgetMxstat _ _ | .vadd _ _ _ _ _ | .vsub _ _ _ _ _ | .vmul _ _ _ _ _ | .vfma _ _ _ _ _
  | .vfms _ _ _ _ _ | .vfnma _ _ _ _ _ | .vmin _ _ _ _ _ | .vmax _ _ _ _ _ | .vabs _ _ _ _ | .vneg _ _ _ _
  | .vdiv _ _ _ _ _ | .vsqrt _ _ _ _ | .vrcp _ _ _ _ | .vrsqrt _ _ _ _ | .vexp2 _ _ _ _ | .vlog2 _ _ _ _
  | .vand _ _ _ _ _ | .vor _ _ _ _ _ | .vxor _ _ _ _ _ | .vshl _ _ _ _ _ | .vshr _ _ _ _ _ | .vsar _ _ _ _ _
  | .vmulh _ _ _ _ _ | .vdot4 _ _ _ _ _ | .vceq _ _ _ _ _ | .vcne _ _ _ _ _ | .vclt _ _ _ _ _
  | .vcle _ _ _ _ _ | .vcun _ _ _ _ _ | .vsel _ _ _ _ | .vmov _ _ _ _ | .vbcast _ _ _ _ | .vext _ _ _ _ _
  | .vins _ _ _ _ _ | .vperm _ _ _ _ _ | .vrot _ _ _ _ _ | .vred _ _ _ _ _ | .vscan _ _ _ _ _
  | .vsticky _ _ _ | .vstclr _ _ _ | .vcvt _ _ _ _ _ _ | .vqnt _ _ _ _ | .vdqn _ _ _ _ | .vrnd _ _ _ _ _
  | .vscl _ _ _ _ _ | .vsp2Enc _ _ _ _ _ | .vsp2Dec _ _ _ _ _ | .vpk _ _ _ _ _ | .vupk _ _ _ _ _ _ _
  | .vld _ _ _ _ _ | .vst _ _ _ _ _ | .vlda _ _ _ _ _ | .vsta _ _ _ _ | .vldc _ _ _ _ | .vstc _ _ _ _
  | .vgat _ _ _ _ _ | .vsct _ _ _ _ | .vpf _ _ _ _ | .vsmrg _ _ _ | .vlgsz _ _ _ _ _ | .mcall _ | .mret
  | .mloop _ _ | .mend _ _ | .mlda _ _ | .mmac _ _ _ _ | .mzero _ | .mdrain _ _ _ _ | .mhada _ _ _ | .mkat _
  | .madd _ _ _ _ | .mprogSet _ _ _ | .mprogClr _ | .msync | .cpSrc _ _ _ _ _ | .cpDst _ _ _ _ _
  | .cpShp _ _ _ _ | .cpFmt _ _ _ | .cpFmtCtl _ _ _ | .cpGo _ _ _ _ _ _ _ _ | .cpFill _ _ _ _
  | .cpStat _ _ _ _ | .cpCancel _ _ _ | .cpTdef _ _ _ | .resAlloc _ _ _ | .resLoad _ _ _ | .resPin _ _
  | .resUnpin _ _ _ | .resRevoke _ _ | .resReload _ _ | .resQ _ _ _ | .rmaConn _ _ _ | .rmaConnClose _ _
  | .rmaPut _ _ _ _ | .rmaGet _ _ _ _ _ | .rmaRed _ _ _ _ _ | .rmaStat _ _ _ | .chSend _ _ _ | .chRecv _ _
  | .chRed _ _ _ | .chBcast _ _ _ | .chAgat _ _ _ | .chWait _ _ _ _ _ | .chQ _ _ _ | .atQ _ _ _ _ _ _
  | .kvApp _ _ _ _ _ | .pmRd _ _ _ | .pmWrSeq _ _ | .pmWrUnit _ _ | .pmRebal _ _ _ _ | .pxHash _ _ _
  | .pxLook _ _ _ | .pxPin _ _ _ | .pxUnpin _ _ _ | .pxIns _ _ _ | .tierIn _ _ _ _ _ | .tmMatch _ _ _ _
  | .tmMerge _ _ _ _ _ | .tmUnmrg _ _ _ _ | .tmFree _ _ | .tmSpill _ _ _ | .tmFill _ _ _ | .br _ _ _
  | .jal _ _ _ | .jr _ _ _ _ | .loop _ _ | .lset _ _ _ | .pand _ _ _ | .por _ _ _ | .pxor _ _ _
  | .pandn _ _ _ | .pnot _ _ | .pany _ _ _ | .pall _ _ _ | .pset _ _ | .fmtSet _ _ _ | .fmtGet _ _
  | .phase _ | .phin _ _ | .fence _ _ _ | .barInit _ _ _ | .barArr _ _ | .barWait _ _ _ | .waita _ _ _ _ _
  | .tspawn _ _ _ | .texit _ | .trap _ _ | .rfe _ | .fuse _ _ | .decpl _ | .rejoin _ | .prio _ _
  | .sctPin _ _ _ | .sctRel _ _ _ | .halt _ => false
  | .commitComplete | .loadDataArrival _ _ | .groupAbortNotice _ | .phaseBudget | .lateTrapDelivery
  | .mmpFaultService _ | .pagerCompletion _ | .freezeLimit | .pageMigrationStart _ | .pageMigrationEnd _
  | .clearingComplete | .poolLinkLost _ | .poolPortRetrain _ _ | .hostPortDown | .hostCxlMemWrite _ _
  | .copyCommandComplete _ | .copyCommandFault _ _ | .matrixOpPerform | .mkatRun | .residencyLoadComplete _
  | .residencyLoadFail _ _ | .arrayError _ | .compareModeRunEnd _ | .flitCrcFail _ | .linkTrainingResult _ _
  | .linkTrainingTimeout _ | .packetRoute _ | .multipathFallback _ | .fifowArrival _ _ | .flow _ _
  | .orderedPacketReceipt _ | .orderedAckReceipt _ _ | .rtoExpiry _ | .fabtmoExpiry _ | .remoteReplyData _ _
  | .nakReceipt _ _ | .openReceipt _ | .answerReceipt _ _ _ | .connectionTimeout _ _ | .autoOpen _ _
  | .brokenClose _ _ | .putPacketLanding _ _ _ | .messageAckReceipt _ _ _ _ | .redPacketApply _ _
  | .getreqReceipt _ | .getDataLanding _ _ _ _ _ | .collPacketReceipt _ | .sourceReadComplete _
  | .barrierArrival _ _ | .groupTableFill _ _ | .queryAtHolder _ | .partialMerge _ _ _
  | .resultRecordWrite _ | .staleReport _ | .attentionTimeout _ | .appendAtHolder _ | .appendComplete _ _
  | .pmtWriteAtMember _ _ | .rebalanceQuery _ | .rebalanceApply _ | .rebalanceComplete _ _
  | .unitCopyComplete _ _ _ | .tierInComplete _ | .tierInFail _ _ | .tmCommandPerform | .launchWordWrite _
  | .dependenceWordWrite _ | .startTimeTest | .priorityAgeing | .taskPlacement | .saveComplete
  | .emergencyAreaDrain | .starveCountExpiry | .gangForm | .gangRejoin | .streamIdleExpiry _
  | .streamEvictionComplete _ | .streamLoadComplete _ | .devtimeWrite _ | .ppsEdge | .devtimeSlewEnd
  | .ecclogClear | .linklogClear | .haltmaskClear _ _ | .culletClear _ | .routecfgVerWrite _
  | .routecfgDropClear | .rtdatWrite _ | .sctcfgWrite _ | .lwaddrWrite _ _ | .hbmWordTransfer _
  | .laneSwapComplete _ _ | .powerOnBoot _ | .bootRecordClear _ | .voltageAlarm | .clockAlarm
  | .temperatureAlarm | .lidMeshAlarm | .mailboxNonceWrite _ | .attestationReportReady | .clockStepDown
  | .clockStepUp | .poolBackInvalidation _ | .mmpServiceRequest _ | .hostPortRetrain _ | .linkPartnerLost _
  | .idleFlitReceipt _ _ _ _ | .gixImageLoad _ _ _ => true

end Sys2Proof.Machine
end

