-- ==== Sys2Proof/Machine/Issue.lean ====
section
/-! DEFINITION. Issuing a group (R38 to R49, R403), the merge stage (R395), and what the package does while no
context can issue. -/

namespace Sys2Proof.Machine

/-! ## The form of a group -/

/-- The address is a group start: aligned, and the word before it, fetched under the same rules, has its stop bit
set (R44). -/
def checkStart (pc : W64) (s : State) : Res State :=
  if pc.toNat % 4 ≠ 0 then trapAt .bundleForm pc
  else match fetchWord (pc - 4) s with
    | .error (.trap c _) => trapAt c (pc - 4)
    | .error e => .error e
    | .ok (w, s) => if stopOf w then .ok s else trapAt .bundleForm pc

/-- The unit code of a slot, and the most slots of a unit in a group (R27). -/
def unitOf (w : W32) : Nat := (bits w 28 3).toNat
def unitLimit (u : Nat) : Nat :=
  match u with
  | 0 => 1 | 1 => 2 | 2 => 1 | 3 => 2 | 4 => 1 | 5 => 1 | _ => 8

/-- The destinations of a word, where it is a slot (R41). One that does not decode has none: the spec does not say whether it
counts as writing a destination, so its group traps ILLEGAL and not BUNDLE_FORM (log 84). -/
def wordDests (w : W32) : List Dest :=
  match decodeSlot w with
  | .ok (.instr i) => slotDests i
  | .ok (.lit _) | .ok .pad | .error _ => []

/-- Slot i breaks the form of its group (R41, R43). -/
def badForm (ws : List W32) (i : Nat) : Bool :=
  match ws[i]? with
  | none => false
  | some w =>
    (i < 3 && stopOf w)
      || unitLimit (unitOf w) ≤ ((ws.take i).filter (fun x => unitOf x = unitOf w)).length
      || (wordDests w).any (fun d => (ws.take i).any (fun x => (wordDests x).contains d))
      || (i = 7 && !stopOf w)

/-- The offending slot of a group (R43). -/
def offender (ws : List W32) : Option Nat := (List.range 8).find? (badForm ws)

/-- The group's literal (R31). -/
def groupLit : List W32 → Option (BitVec 28)
  | [] => none
  | w :: r => match decodeSlot w with
    | .ok (.lit p) => some p
    | .ok (.instr _) | .ok .pad | .error _ => groupLit r

/-- The slot traps at decode (R31, R42). -/
def badDecode (lit : Option (BitVec 28)) (w : W32) : Bool :=
  match decodeSlot w with
  | .error _ => true
  | .ok (.instr i) => lit.isNone && (slotSrcs i).contains .lit
  | .ok (.lit _) | .ok .pad => false

/-- TRMASK of the slots that trap at decode (R43). -/
def decodeMask (ws : List W32) : Nat :=
  ((List.range ws.length).filter (fun i => badDecode (groupLit ws) (ws.getD i 0))).map (2 ^ ·) |>.sum

/-- The slots of a group by number. -/
def slotsFrom (k : Nat) : List W32 → List (Nat × Instr)
  | [] => []
  | w :: r => match decodeSlot w with
    | .ok (.instr i) => (k, i) :: slotsFrom (k + 1) r
    | .ok (.lit _) | .ok .pad | .error _ => slotsFrom (k + 1) r

/-! ## What a group waits for (R43) -/

/-- The slot takes effect as far as its guard tells (R34). -/
def slotOn (i : Instr) (s : State) : Bool :=
  match (slotUses i).1 with
  | .none | .element => true
  | .uniform g => guardOn g s
  | .lanes g => vGuard g s ≠ 0

/-- A value that a slot reads is still to come (R50). -/
def useAwaits (c : Ctx) : Use → Bool
  | .s (.reg r) | .sReg r => awaits c (.reg r)
  | .v (.reg r) | .vReg r => awaitsV c (.reg r)
  | .s (.latch n) | .v (.latch n) => awaitsLatch c n
  | .s _ | .v _ => false

/-- A scoreboarded result is still to come for a destination (R50). -/
def destAwaits (c : Ctx) : Dest → Bool
  | .s r => awaits c (.reg r)
  | .v r => awaitsV c (.reg r)
  | .latch n => awaitsLatch c n
  | .fifo n => awaitsFifo c n
  | .p _ | .lc _ | .m _ | .shadow _ _ => false

/-- The words that one operand pops (R33). -/
def usePops : Use → Option (LinkNo × Nat)
  | .s (.fifo n) => some (n, 1)
  | .v (.fifo n) => some (n, 32)
  | .s _ | .v _ | .sReg _ | .vReg _ => none

/-- The words that an enabled slot pops; whether `vins` pops is its own matter. -/
def slotPops (i : Instr) : List (LinkNo × Nat) :=
  match (slotUses i).1 with
  | .element => []
  | .none | .uniform _ | .lanes _ => (slotUses i).2.filterMap usePops

/-- The group waits before its operation traps are decided (R43): for scoreboarded results that its enabled slots read or
write, and for the words they pop, where the link lets them come. `vins` waits of itself once it knows its lane. -/
def groupWaits (l : List Instr) (s : State) : Bool :=
  let on := l.filter (fun i => slotOn i s)
  let known := on.filter (fun i => (slotUses i).1 ≠ .element)
  let pops := on.flatMap slotPops
  let short (n : LinkNo) : Bool :=
    let q := s.core.recv[n]
    let k := ((pops.filter (fun p => p.1 = n)).map Prod.snd).sum
    k ≠ 0 && checkLink n s = .ok () && q.words.length < q.rd + k
  known.any (fun i => (slotUses i).2.any (useAwaits s.c) || (slotDests i).any (destAwaits s.c)) || (List.finRange 6).any short

/-- The machine with the words of a slot popped that traps or stalls: the slots after it read successive words (R33). -/
def skipPops (i : Instr) (s : State) : State :=
  if !slotOn i s then s
  else ((slotUses i).2.filterMap usePops).foldl (fun s p => match popWords p.1 p.2 s with
    | .ok (_, t) => t
    | .error _ => s) s

/-- A slot that ends the phase or the handler takes effect after the others of its group (R52, R201). -/
def isLast : Instr → Bool
  | .phase _ | .texit _ | .halt _ | .rfe _ => true
  | _ => false

/-- The slots in the order in which they are run. -/
def runOrder (l : List (Nat × Instr)) : List (Nat × Instr) :=
  l.filter (fun x => !isLast x.2) ++ l.filter (fun x => isLast x.2)

/-! ## Running the slots -/

/-- What the slots of a group have met so far (R43). -/
structure Tally where
  data : Bool
  resource : Bool
  froze : Option FaultRec
  mask : Nat
  trap : Option (Nat × Cause × W64)
  reload : List Nat
  race : Bool
  depth : List (BitVec 8)
  poison : Option W64
deriving DecidableEq, Repr

/-- Nothing met. -/
def Tally.clear : Tally := ⟨false, false, none, 0, none, [], false, [], none⟩

/-- A trap of slot k joins: the lowest slot's cause counts (R43). -/
def Tally.addTrap (t : Tally) (k : Nat) (c : Cause) (a : W64) : Tally :=
  { t with
    mask := t.mask + 2 ^ k
    trap := match t.trap with
      | some (j, d) => if j < k then some (j, d) else some (k, c, a)
      | none => some (k, c, a) }

/-- What ends a run for good. -/
abbrev Broken := Fault ⊕ Refusal

/-- Each slot is run on the machine as its group found it: no result has latency 0, so none is read (R40, R47), and the
units are sampled as they stood at the group's start (R8). What the lower slots reserve (queue room, words popped) counts
for the higher ones, and so does what they do to the open set, where the spec names no order (log 82). A slot that stops
short leaves the machine to the others as it was but for its pops (R33). -/
def runSlots : List (Nat × Instr) → Tally → State → Except Broken (Tally × State)
  | [], t, s => .ok (t, s)
  | (k, i) :: r, t, s =>
    let s := { s with grp := { s.grp with idx := k, trap := none, stall := none, reload := [], race := false, depth := none, poison := none } }
    match exec i s with
    | .fault f => .error (.inl f)
    | .refused f => .error (.inr f)
    | .next n =>
      match n.grp.trap, n.grp.stall with
      | some (c, a), _ => runSlots r (t.addTrap k c a) (skipPops i s)
      | none, some .data => runSlots r { t with data := true } (skipPops i s)
      | none, some .resource =>
        runSlots r { t with resource := true, reload := t.reload ++ n.grp.reload, race := t.race || n.grp.race, depth := t.depth ++ n.grp.depth.toList }
          (skipPops i s)
      | none, none =>
        match n.c.frozen, n.grp.poison with
        | some f, _ => runSlots r { t with froze := some f } (skipPops i s)
        | none, some va => runSlots r { t with poison := t.poison <|> some va } (skipPops i s)
        | none, none => runSlots r t n

/-- The group is being run. -/
def startGroup (pc : W64) (ws : List W32) (s : State) : State :=
  { s with grp :=
    { Grp.none with pc := pc, nx := afterGroup pc ws.length, lit := groupLit ws, emitted := s.c.emitted, mark := s.c.buf.length, eng := s.c.engCount } }

/-- The slots of the group find the machine as it stands now. -/
def openGroup (s : State) : State := { s with grp := { s.grp with start := some ⟨s.c, s.core, s.pkg⟩ } }

/-- The group has taken effect: the group count rises, and the context goes on at the target or after the group
(R46, R99). -/
def commitGroup (s : State) : State :=
  let s := { s with grp := { s.grp with start := none } }
  if s.c.live then
    s.withC { s.c with
      gc := s.c.gc + 1
      a := { s.c.a with pc := s.grp.target.getD s.grp.nx }
      unmapped := []
      raced := false
      chStall := [] }
  else s

/-- The group waits for another resource: the reloads that its checks ask for start, and a V slot that has met matrix
work is remembered (R236, R245), and so is a channel that has no room (R330). -/
def holdGroup (t : Tally) (s : State) : State :=
  let s := t.reload.foldl (fun s i => startReload i none s) s
  s.withC { s.c with raced := s.c.raced || t.race, chStall := t.depth }

/-- A run of compare mode stops before the group that ends the phase or emits (R282). -/
def compareStops (s n : State) : Bool := s.c.compare.isSome && (n.c.commit.isSome || n.c.emitted || !n.c.live)

/-- The slot's operation is immediate and does not emit (R177). -/
def immediateOp : Instr → Bool
  | .resAlloc _ _ _ | .resLoad _ _ _ | .resReload _ _ | .resPin _ _ | .resUnpin _ _ _ | .resRevoke _ _ | .resQ _ _ _
  | .mprogSet _ _ _ | .mprogClr _ | .roinv _ | .tlbInv _ _ _ | .vpf _ _ _ _
  | .tmMatch _ _ _ _ | .tmMerge _ _ _ _ _ | .tmFree _ _ | .tmFill _ _ _ => true
  | _ => false

/-- The members of a twin gang compare each immediate operation before it is performed, and find a mismatch in this group
(R284, log 14). In an emitted phase they find it at the commit. -/
def twinDiffers (ws : List W32) (s n : State) : Bool :=
  !s.c.emitted && (n.c.emitted || (slotsFrom 0 ws).any (fun x => immediateOp x.2 && slotOn x.2 s)) && twinFails s

/-- The bytes of a buffered operation that a signature covers: its kind, address and data (R282, log 95). -/
def sigBytes (b : Buffered) : List Byte :=
  let op (kind addr : Nat) (data : List Byte) : List Byte := bytesOf 1 kind ++ bytesOf 8 addr ++ data
  let cells (m : Cells) : List Byte := m.flatMap (fun x => bytesOf 8 x.1 ++ [x.2])
  let tensor (t : Tensor) : List Byte := bytesOf 8 t.base ++ bytesOf 8 t.desc
  match b with
  | .store m => op 0 0 (cells m)
  | .remote node off data => op 1 off (bytesOf 2 node.toNat ++ data)
  | .remoteV node off m => op 2 off (bytesOf 2 node.toNat ++ cells m)
  | .message cn nt o off src len =>
    op 3 off (bytesOf 1 cn.val ++ bytesOf 1 nt.toNat ++ bytesOf 1 (o.elim 16 (·.val)) ++ bytesOf 8 len ++ src.flatMap (bytesOf 8))
  | .barInit gid b n => op 4 b.toNat (bytesOf 1 gid.toNat ++ bytesOf 2 n.toNat)
  | .barArr gid b => op 5 b.toNat (bytesOf 1 gid.toNat)
  | .spawn va n => op 6 va.toNat (bytesOf 4 n)
  | .sctPin id => op 7 id.toNat []
  | .sctRel id wb => op 8 id.toNat (bytesOf 1 wb.toNat)
  | .fuse f => op 9 (match f with | .w2 => 0 | .w4 => 1 | .t2 => 2) []
  | .decpl => op 10 0 []
  | .copy x => op 11 0 (tensor x.dst ++ tensor x.src ++ shadowBytes x.sh ++ x.cw.toList.flatMap (fun w => bytesOf 1 w.1.toNat ++ bytesOf 4 w.2.1))

/-- The signature of a run (R282, log 95). -/
def runSignature (r : Compare) (s : State) : W64 :=
  let a := (takeAllPending s).c.a
  crc64 (s.c.buf.flatMap sigBytes ++ r.log ++ registerBytes a ++ a.v.toList.flatMap vectorBytes)

/-- The run has stopped: once its matrix work and its loads are done, its signature is taken (R282). -/
def stopCompare (s : State) : State :=
  match s.c.compare with
  | none => s
  | some r =>
    if !mxIdle s.c || !s.c.ops.isEmpty then s
    else s.withC { s.c with compare := some { r with stopped := true, sig := runSignature r s } }

/-- A context's turn: the words of the group it issued, or none where it could not. -/
abbrev Turn := Except Broken (Option (List W32) × State)

/-- A trap of the group is delivered (R43, R403). -/
def trapGroup (ws : List W32) (c : Cause) (a : W64) (mask : Nat) (s : State) : Turn :=
  .ok (some ws, takeTrap c a mask (s.withC { s.c with unmapped := [] }))

/-- A freeze (R161). -/
def freezeGroup (f : FaultRec) (s : State) : Turn :=
  .ok (none, s.withC { s.c with frozen := some f, frozenSince := s.pkg.devtime })

/-- What the slots of a gang's group meet over all its members (R397): the cause of the lowest slot that traps, of the lowest
GRANK among equals; the others' traps are not known to this core (log 14). Each member keeps its own TRMASK. -/
def gangTrap (t : Tally) (s : State) : Option (Nat × Cause × W64) :=
  if s.c.id.gsize = 0 then t.trap
  else match Config.mateTrap s.tick, t.trap with
    | none, x => x
    | some (k, c, _), none => some (k, c, freeAddr s)
    | some (k, c, r), some x => if k < x.1 || (k = x.1 && r < s.c.id.grank.toNat) then some (k, c, freeAddr s) else some x

/-- The fetched words are checked and run (R43): BUNDLE_FORM, decoding traps, the values that are
still to come, then the slots; of what these meet, waits for data come first, then a freeze, traps, and waits for other
resources; a group that would issue but for poison in its data consumes it (R184). The freeze of one slot comes before the
trap of another (log 102). -/
def runGroup (pc : W64) (ws : List W32) (s : State) : Turn :=
  let s := startGroup pc ws s
  match offender ws with
  | some i => trapGroup ws .bundleForm (afterGroup pc i) 0 s
  | none =>
    if decodeMask ws ≠ 0 then trapGroup ws .illegal (freeAddr s) (decodeMask ws) s
    else if groupWaits ((slotsFrom 0 ws).map Prod.snd) s then .ok (none, s)
    else match runSlots (runOrder (slotsFrom 0 ws)) Tally.clear (openGroup s) with
      | .error e => .error e
      | .ok (t, n) =>
        if t.data then .ok (none, s)
        else match t.froze, gangTrap t s with
          | some f, _ => freezeGroup f s
          | none, some (_, c, a) => trapGroup ws c a t.mask s
          | none, none =>
          if t.resource then .ok (none, holdGroup t s)
          else if t.poison.isSome then .ok (some ws, consumeError (t.poison.getD 0) { n with grp := { n.grp with pc := pc } })
          else if compareStops s n then .ok (none, stopCompare s)
          else if twinDiffers ws s n then .ok (some [], twinMismatch s)
          else .ok (some ws, commitGroup n)

/-- The next group of the running context is fetched and run. Results due at it have taken effect, for it and for the
handler of a trap it takes (R47, R52), but where a transfer leads to no group: there R100 holds them with the others, so that
the link of the transfer has not fallen due when the handler runs (log 83). They are pending still while the fetch freezes or
waits. -/
def issueGroup (u : State) : Turn :=
  let s := applyDue u
  let pc := s.c.a.pc
  let here (s : State) : State := { s with grp := { Grp.none with pc := pc } }
  let s := here s
  let r := do
    let s ← checkStart pc s
    let (ws, s) ← fetchWords pc 8 s
    .ok (ws, s)
  match r with
  | .ok (ws, s) => runGroup pc ws s
  | .error (.trap .bundleForm a) => trapGroup [] .bundleForm (a.getD pc) 0 (here u)
  | .error (.trap c a) => trapGroup [] c (a.getD (freeAddr s)) 0 s
  | .error (.freeze f) => freezeGroup f (here u)
  | .error (.stall _) | .error (.resid _) | .error .matrix | .error (.depth _) | .error (.poison _) => .ok (none, here u)
  | .error (.fault f) => .error (.inl f)

/-! ## Waits -/

/-- The condition of a wait holds now (R206, R209, R261, R335, R336, R362, R415). -/
def waitDone (s : State) (w : Wait) : Bool :=
  match w with
  | .word cb off x ge =>
    let v := getNum (s.buf cb) off 4
    if ge then x.toNat ≤ v else v = x.toNat
  | .barrier _ i gen => !((barAt s.core i).gen - gen).msb
  | .rejoin => false
  | .msync => mxIdle s.c
  | .chRecv _ | .chWait _ _ _ => chanWaitDone s w
  | .pmt n => pmtDone s n

/-- Declared inputs are being refetched, which a rerun waits for (R219). -/
def refetching (s : State) : Bool := s.core.xq.any (fun x => ownCopy s x && x.refetch)

/-- The context could issue a group if nothing it needs were missing. -/
def ready (c : Ctx) : Bool := c.live && c.frozen.isNone && c.commit.isNone && !c.saving && !c.clearing

/-- Compare mode holds the context: its run has stopped, or waits for reloads, or the other context is in compare mode
(R282). -/
def compareHolds (s : State) : Bool :=
  (match s.c.compare with | some r => r.stopped || !r.loads.isEmpty | none => false) || (s.c2.live && s.c2.compare.isSome)

/-- The running context's turn: late traps first, then the trap of a task that does not start (R154), then the waits that keep
its next group, then the group (R180, R206, R403). All wait where a typed-buffer write is held back; one that was held back from a routine meets the bytes
that the routine touches with nothing between them (R245). -/
def takeTurn (s : State) : Turn :=
  if !ready s.c || compareHolds s then .ok (none, s)
  else if heldWrite s.c then .ok (none, s.withC { s.c with raced := s.c.raced || mxBusy s.c })
  else if !s.c.late.isEmpty && !s.c.a.inh then .ok (some [], deliverLate s)
  else if s.c.id.unfit && !s.c.a.inh then trapGroup [] .tensor (freeAddr s) 0 { s with grp := { Grp.none with pc := s.c.a.pc } }
  else
    let s := s.withC { s.c with waits := s.c.waits.filter (fun w => !waitDone s w) }
    if !s.c.waits.isEmpty || refetching s then .ok (none, s) else issueGroup s

/-! ## The merge stage (R395) -/

/-- The slots of two groups together keep the limits of one issue (R395). -/
def fitTogether (a b : List W32) : Bool :=
  [0, 1, 2, 3, 4].all (fun u =>
    ((a ++ b).filter (fun w => unitOf w = u)).length ≤ (if u = 1 || u = 3 then 2 else 1))

/-- The running context is the primary (R395): the higher IPRIO, or context 0, unless the secondary has starved. -/
def isPrimary (s : State) : Bool :=
  let a := s.c.a.iprio.toNat
  let b := s.c2.a.iprio.toNat
  let byPrio := if a = b then !s.slot1 else b < a
  if !s.c.live then false else if !s.c2.live then true else byPrio != s.core.boost

/-- The machine with the primary running. -/
def asPrimary (s : State) : State := if isPrimary s then s else swapCtx s

/-- The secondary did not issue though it could: its starve count rises, and at 64 it is primary for one group
(R395). -/
def starve (s : State) : State :=
  if s.core.starve + 1 < 64 then s.withCore { s.core with starve := s.core.starve + 1 }
  else s.withCore { s.core with starve := 0, boost := true }

/-- One issue of the core: the primary's group, and the secondary's where both fit, or where the primary cannot
issue. The flag says whether anything issued. -/
def issueCore (s : State) : Except Broken (Bool × State) := do
  let s := asPrimary s
  let (a, s) ← takeTurn s
  let s := if a.isSome then s.withCore { s.core with boost := false } else s
  if !s.c2.live then .ok (a.isSome, s)
  else
    let (b, t) ← takeTurn (swapCtx s)
    match a, b with
    | none, none => .ok (false, swapCtx t)
    | none, some _ => .ok (true, swapCtx t)
    | some _, none => .ok (true, swapCtx t)
    | some x, some y => if fitTogether x y then .ok (true, swapCtx t) else .ok (true, starve s)

/-! ## Time -/

/-- The phase clock of the running context advances; at LIMIT, or where LIMIT has been lowered to what it shows, the context
will trap (R180). A freeze, a handler and a commit stop it. -/
def runClock (s : State) : State :=
  let c := s.c
  let limit := c.a.phbudget.toNat % 2 ^ 32
  if !c.live || c.a.inh || c.frozen.isSome || c.commit.isSome then s
  else
    let s := s.withC { c with clock := c.clock + 1 }
    if limit ≠ 0 && limit ≤ c.clock + 1 then budgetSpent s else s

/-- What follows at once from what a step did: queues drain, connections send what their windows take, page-ins that were
cancelled end, and the dispatchers see what was written to their launch words. -/
def followUp (s : State) : State :=
  let s := runLoop (flowStep (drainSend (inOther runClock (runClock s))))
  watchLaunches (sweepTiers (moveHeld (flushLater (pumpPaths (pumpAll (reapConns s))))))

/-- What every step adds: time passes, the phase clocks run, and what follows is done; a package held in reset does
nothing. -/
def afterStep (s : State) : State :=
  let s := s.withPkg (passTime (Config.elapsed s.tick) s.pkg)
  let s := if s.pkg.inReset then s else followUp s
  { s with tick := s.tick + 1 }

/-! ## When no context can issue -/

/-- The first operation of the running context that may be performed. -/
def nextOp (s : State) : Option Nat :=
  (List.range s.c.ops.length).find? (fun k => match s.c.ops[k]? with
    | some o => o.isLocal && mayPerform s k o
    | none => false)

/-- What is due in the running context without the outside: matrix and token merge work goes on, a commit or a save goes
on, an operation is performed. -/
def settle (s : State) : State :=
  let s := (tmStep (finishClearing s)).1
  let s := finishSave (advanceCommit (compareLoads (runKat (matrixStep s).1)))
  match nextOp s with
  | some k => arriveOp k false s
  | none => s

/-- The streams and dispatchers at work: launch words are taken up, tasks are tested and placed (R387 to R399, R407). -/
def scheduleWork (s : State) : State :=
  let ids := s.pkg.streams.map (fun e => BitVec.ofNat 12 e.1)
  let s := ids.foldl (fun s i => streamLoaded i (streamEvicted i (streamExpires i s))) s
  let s := (List.finRange 16).foldl (fun s n => takeLaunch 1 n (takeLaunch 0 n s)) s
  dispatch (othersLeave (drainEmergency (testTasks (fun _ => true) s)))

/-- The package's own work: the engines, the residency loads, collectives and attention, each
context's work, the dispatchers. -/
def progress (s : State) : State :=
  let s := serveXfer 1 (serveXfer 0 s)
  let s := (loadingEntries s.core).foldl (fun s i => completeLoad i s) s
  let s := attnProgress (collProgress s)
  scheduleWork (evacuate (inOther settle (settle s)))

/-- One issue of the core as an outcome; a package held in reset issues nothing (R424, R427). The package's own work goes
on while no context issues, and in every 16th step (log 26). -/
def runCore (s : State) : Host.Outcome State Fault Refusal :=
  if s.pkg.inReset then .next s
  else match issueCore s with
    | .error (.inl f) => .fault f
    | .error (.inr r) => .refused r
    | .ok (issued, s) => .next (if issued && s.tick % 16 ≠ 15 then s else progress s)

/-- The events that reach a package held in reset: power, and what the key store unit watches and serves (R424, R427,
R429). -/
def reachesReset : Instr → Bool
  | .powerOnBoot _ | .bootRecordClear _ | .voltageAlarm | .clockAlarm | .temperatureAlarm | .lidMeshAlarm
  | .mailboxNonceWrite _ | .attestationReportReady => true
  | _ => false

/-- One event of the agenda; a slot is none. -/
def runEvent (i : Instr) (s : State) : Host.Outcome State Fault Refusal :=
  if isEvent i && (!s.pkg.inReset || reachesReset i) then exec i s else .next s

/-! ## Placing one instruction for the next fetch -/

/-- Where `withFetchWord` puts its page tables, its code and the page it maps. -/
def fetchTable : Nat := 0x100000
def fetchPage : Nat := 0x200000

/-- Bytes for a resident context whose next group is one slot: a page table that maps virtual page 0 to a page of
code, the section guard, the slot, two pads and a literal of 0 with the stop bit (R31, R44, R64, R146). -/
def fetchCells (w : W32) : Cells :=
  let pte (x : Nat) : Cells := cellsAt x (bytesOf 8 0)
  let link (a b : Nat) : Cells := pte a ++ cellsAt a (bytesOf 8 (b + 1))
  link fetchTable (fetchTable + 0x20000) ++ link (fetchTable + 0x20000) (fetchTable + 0x30000)
    ++ link (fetchTable + 0x30000) (fetchTable + 0x40000)
    ++ cellsAt (fetchTable + 0x40000) (bytesOf 8 (fetchPage + 0x2F))
    ++ cellsAt fetchPage (wordBytes guardWord ++ wordBytes (w &&& 0x7FFFFFFF#32) ++ wordBytes padWord ++ wordBytes padWord
      ++ wordBytes (withStop (litWord 0)))

end Sys2Proof.Machine
end

