-- ==== Sys2Proof/Machine/Step.lean ====
section
/-! DEFINITION. One step of the machine: the next event of the agenda, or one issue of the core. -/

namespace Sys2Proof.Machine

/-- One step. -/
def step (s : State) : Host.Outcome State Fault Refusal :=
  let o := match s.agenda with
    | i :: r => runEvent i { s with agenda := r }
    | [] => runCore s
  match o with
  | .next t => .next (afterStep t)
  | .fault f => .fault f
  | .refused r => .refused r

/-- The machine with the instruction of some bits where the next step fetches (log 15): a supervisor context is
resident, its page table maps the page that holds the slot, two pads and a literal, nothing else is to be done. A context
that is already resident keeps its registers. -/
def State.withFetchWord (s : State) (nbits w : Nat) : State :=
  let s := if s.c.live || !s.c2.live then s else swapCtx s
  let c := s.c
  { s with
    c := { c with
      live := true
      id := { c.id with sup := true }
      a := { c.a with pc := 4, ptroot := BitVec.ofNat 64 (fetchTable + 1) }
      waits := [], frozen := none, late := [], commit := none, compare := none, saving := false, clearing := false }
    c2 := { s.c2 with live := false }
    pkg := { s.pkg with mem := putCells s.pkg.mem (fetchCells (BitVec.ofNat 32 (w % 2 ^ nbits))), tlb := [], inReset := false }
    agenda := [] }

end Sys2Proof.Machine
end

