-- ==== Sys2Proof/Safety.lean ====
section
/-! DEFINITION. What counts as a safe run, and the terms in which statements speak of operands, destinations and memory:
each says on the state alone when an operand can be read or a result written, and what that gives. -/

namespace Sys2Proof

/-- n steps from a state reach a next state, with no fault and no refusal on the way. -/
def RunsFor (n : Nat) (s : Machine.State) : Prop := ∃ t, core.run n s = .next t

/-- The machine never stops from this state. -/
def Safe (s : Machine.State) : Prop := ∀ n, RunsFor n s

end Sys2Proof

namespace Sys2Proof.Machine

/-! ## Operands -/

/-- FIFO n may be used (R298, R299): the context holds the lease, the link is connected and has not failed. -/
def linkOpen (n : LinkNo) (s : State) : Bool :=
  s.c.id.lease && (s.pkg.links[n]).conn && decide ((s.pkg.links[n]).state ≠ .failed)

/-- k words stand in the receive queue of link n past those already popped (R33, R299). -/
def arrived (n : LinkNo) (k : Nat) (s : State) : Bool := decide ((s.core.recv[n]).rd + k ≤ (s.core.recv[n]).words.length)

/-- The words a pop of k takes, and the machine after it. -/
def popped (n : LinkNo) (k : Nat) (s : State) : List W64 := ((s.core.recv[n]).words.drop (s.core.recv[n]).rd).take k
def afterPop (n : LinkNo) (k : Nat) (s : State) : State :=
  s.withCore { s.core with recv := s.core.recv.set n { s.core.recv[n] with rd := (s.core.recv[n]).rd + k } }

/-- A scalar operand can be read now (R30 to R33, R50): nothing was to come for it as its group started. -/
def canRead (x : Src) (s : State) : Bool :=
  match x with
  | .reg r => !awaits (atStart s).c (.reg r)
  | .latch n => !awaitsLatch (atStart s).c n && (match (s.c.latch[n]).val with | some (.scalar _) => true | _ => false)
  | .lit => s.grp.lit.isSome
  | .fifo n => linkOpen n s && arrived n 1 s
  | .zero | .ident | .one | .mone => true

/-- Its value: a register's, a latch's, a popped word, or a constant (R30, R31). -/
def valueOf (x : Src) (s : State) : W64 :=
  match x with
  | .reg r => s.c.a.s[r]
  | .latch n => match (s.c.latch[n]).val with | some (.scalar v) => v | _ => 0
  | .zero => 0
  | .lit => match s.grp.lit with | some p => p.signExtend 64 | none => 0
  | .ident => Config.coreId.zeroExtend 64
  | .fifo n => (popped n 1 s).headD 0
  | .one => 1
  | .mone => BitVec.allOnes 64

/-- Its taint (R95, R118). -/
def taintOf (x : Src) (s : State) : Bool :=
  match x with
  | .reg r => s.c.a.sTaint.getLsbD r
  | .latch n => (s.c.latch[n]).taint
  | .zero | .lit | .ident | .fifo _ | .one | .mone => false

/-- The machine once it is read: a FIFO operand has been popped. -/
def afterRead (x : Src) (s : State) : State :=
  match x with
  | .fifo n => afterPop n 1 s
  | .reg _ | .latch _ | .zero | .lit | .ident | .one | .mone => s

/-- Operands A and B, A read before B (R33). -/
def canRead2 (a b : Src) (s : State) : Bool := canRead a s && canRead b (afterRead a s)
def after2 (a b : Src) (s : State) : State := afterRead b (afterRead a s)
def valueB (a b : Src) (s : State) : W64 := valueOf b (afterRead a s)
def taint2 (a b : Src) (s : State) : Bool := taintOf a s || taintOf b (afterRead a s)

/-- A vector operand can be read now. -/
def canReadV (x : Src) (s : State) : Bool :=
  match x with
  | .reg r => !awaitsV (atStart s).c (.reg r)
  | .latch n => !awaitsLatch (atStart s).c n && (match (s.c.latch[n]).val with | some (.vector _) => true | _ => false)
  | .lit => s.grp.lit.isSome
  | .fifo n => linkOpen n s && arrived n 32 s
  | .zero | .ident | .one | .mone => true

/-- Its value for elements of format f: constants fill every element (R30, R31). -/
def vectorOf (f : Fmt) (x : Src) (s : State) : VWord :=
  match x with
  | .reg r => s.c.a.v[r]
  | .latch n => match (s.c.latch[n]).val with | some (.vector v) => v | _ => 0
  | .zero => 0
  | .lit => match s.grp.lit with
    | some p => packV (widthOf f) (countOf f) (fun _ => litElem s.c.a.fmt f p)
    | none => 0
  | .ident => packV (widthOf f) (countOf f) (fun j => constElem s.c.a.fmt f (.ofInt (laneOf f j)))
  | .fifo n => BitVec.ofNat 2048 (packElems 64 ((popped n 32 s).map BitVec.toNat))
  | .one => packV (widthOf f) (countOf f) (fun _ => constElem s.c.a.fmt f (.ofInt 1))
  | .mone => packV (widthOf f) (countOf f) (fun _ => constElem s.c.a.fmt f (.ofInt (-1)))

/-- Its taint, and the machine once it is read. -/
def taintOfV (x : Src) (s : State) : Bool :=
  match x with
  | .reg r => s.c.a.vTaint.getLsbD r
  | .latch n => (s.c.latch[n]).taint
  | .zero | .lit | .ident | .fifo _ | .one | .mone => false
def afterReadV (x : Src) (s : State) : State :=
  match x with
  | .fifo n => afterPop n 32 s
  | .reg _ | .latch _ | .zero | .lit | .ident | .one | .mone => s

/-- Vector operands A and B, A read before B (R33). -/
def canRead2V (a b : Src) (s : State) : Bool := canReadV a s && canReadV b (afterReadV a s)
def after2V (a b : Src) (s : State) : State := afterReadV b (afterReadV a s)
def vectorB (f : Fmt) (a b : Src) (s : State) : VWord := vectorOf f b (afterReadV a s)
def taint2V (a b : Src) (s : State) : Bool := taintOfV a s || taintOfV b (afterReadV a s)

/-! ## Destinations -/

/-- A push of k words is admitted: the link is open and the 64-word send queue has room (R33, R299). -/
def roomToPush (n : LinkNo) (k : Nat) (s : State) : Bool :=
  linkOpen n s && decide ((s.core.send[n]).length + reserved s.c n + k ≤ 64)

/-- A scalar result can be written: its destination awaits no scoreboarded result (R50), or its push is admitted. -/
def canWrite (d : Dst) (s : State) : Bool :=
  match d with
  | .reg r => !awaits (atStart s).c (.reg r)
  | .latch n => !awaitsLatch (atStart s).c n
  | .fifo n => !awaitsFifo (atStart s).c n && roomToPush n 1 s

/-- The machine with a scalar result due L groups later (R29, R47); a push also emits the phase (R178). -/
def wrote (d : Dst) (x : W64) (t : Bool) (l : Nat) (s : State) : State :=
  match d with
  | .reg r => sched (.s r x t) l s
  | .latch n => sched (.latS n x t) l s
  | .fifo n => sched (.push n [x]) l (emit s)

/-- The same for a vector result. -/
def canWriteV (d : Dst) (s : State) : Bool :=
  match d with
  | .reg r => !awaitsV (atStart s).c (.reg r)
  | .latch n => !awaitsLatch (atStart s).c n
  | .fifo n => !awaitsFifo (atStart s).c n && roomToPush n 32 s
def wroteV (d : Dst) (x : VWord) (t : Bool) (l : Nat) (s : State) : State :=
  match d with
  | .reg r => sched (.v r x t) l s
  | .latch n => sched (.latV n x t) l s
  | .fifo n => sched (.push n (vWords x)) l (emit s)

/-- What the lanes that a V slot does not compute keep: the destination's value where it is a vector, 0 where it is an
invalid latch or a push (R32 to R34), a free value where it is a latch of scalar kind (log 27). -/
def keptV (d : Dst) (s : State) : VWord :=
  match d with
  | .reg r => s.c.a.v[r]
  | .latch n => match (s.c.latch[n]).val with | some (.vector v) => v | some (.scalar _) => freeLanes s | none => 0
  | .fifo _ => 0

/-- The machine with the destination of a load claimed: a push is admitted at issue and emits the phase (R33, R50). -/
def claimed (d : Dst) (s : State) : State :=
  match d with
  | .fifo _ => emit s
  | .reg _ | .latch _ => s

/-! ## Vector results -/

/-- A vector result is delivered (R80, R121): the write, the lane states, and the flags unless Q or there are none. -/
def deliveredV (d : Dst) (q : Bool) (n : VWord) (fl : Sticky) (xs : VWord) (t : Bool) (l : Nat) (s : State) : State :=
  let s := wroteV d n t l s
  let s := s.withA { s.c.a with lanes := xs }
  if q || fl = 0 then s else sched (.sticky fl) l s

/-- The six flags that a set of sticky flags holds for lane i (R120). -/
def laneFlags (fl : Sticky) (i : Nat) : Flags6 := fl.extractLsb' (6 * i) 6

/-- The elements of format f that lie in lane i, and the OR of the flags of those in an enabled lane (R70, R114, R120). -/
def flagsOfLane (f : Fmt) (k : LaneMask) (h : Nat → Flags6) (i : Nat) : Flags6 :=
  if k.getLsbD i then ((List.range (countOf f)).filter (fun j => laneOf f j = i)).foldl (fun a j => a ||| h j) 0 else 0

/-- Element by element (R34, R114): an enabled element of the result is what `h` gives, another keeps what it held, and
each enabled lane gets the flags of its elements; no lane state steps. -/
def Elementwise (f : Fmt) (k : LaneMask) (h : Nat → Nat × Flags6) (old n : VWord) (fl : Sticky) (xs lanes : VWord) : Prop :=
  xs = lanes
    ∧ (∀ j, j < countOf f → elem n (widthOf f) j =
        if k.getLsbD (laneOf f j) then (h j).1 % 2 ^ widthOf f else elem old (widthOf f) j)
    ∧ ∀ i, i < 64 → laneFlags fl i = flagsOfLane f k (fun j => (h j).2) i

/-- The lane state with which element j of format f rounds (R80): under STO that of its lane, stepped once for each element of
the lane up to this one. -/
def roundState (sto : Bool) (f : Fmt) (lanes : VWord) (j : Nat) : W32 :=
  if sto then ((List.range (j + 1)).filter (fun i => laneOf f i = laneOf f j)).foldl (fun x _ => stepLane x) (lane lanes (laneOf f j))
  else 0

/-- The state of lane i after an element-wise instruction (R80): under STO stepped for each element of an enabled lane. -/
def laneAfter (sto : Bool) (f : Fmt) (k : LaneMask) (lanes : VWord) (i : Nat) : W32 :=
  if sto && k.getLsbD i then
    ((List.range (countOf f)).filter (fun j => laneOf f j = i)).foldl (fun x _ => stepLane x) (lane lanes i)
  else lane lanes i

/-- Element by element under any rounding mode (R34, R80, R114): an enabled element is what `h` gives with its lane state, and
the lane states of the enabled lanes have stepped where the elements round under STO. -/
def Roundwise (f : Fmt) (k : LaneMask) (sto : Bool) (h : Nat → W32 → Nat × Flags6) (old n : VWord) (fl : Sticky)
    (xs lanes : VWord) : Prop :=
  (∀ i, i < 64 → lane xs i = laneAfter sto f k lanes i)
    ∧ (∀ j, j < countOf f → elem n (widthOf f) j =
        if k.getLsbD (laneOf f j) then (h j (roundState sto f lanes j)).1 % 2 ^ widthOf f else elem old (widthOf f) j)
    ∧ ∀ i, i < 64 → laneFlags fl i = flagsOfLane f k (fun j => (h j (roundState sto f lanes j)).2) i

/-! ## Poison -/

/-- None of some bytes of AS, or of CB, is poisoned (R184). -/
def sound (cb : Bool) (l : List Nat) (s : State) : Prop := ∀ a ∈ l, (cb, a) ∉ s.core.bad

/-- The slot would take in poison that lies at an address, so that its group consumes it (R184). -/
def Consumes (i : Instr) (a : W64) (s : State) : Prop := exec i s = .next { s with grp := { s.grp with poison := some a } }

/-! ## Traps -/

/-- The machine as a slot that traps leaves it: the trap is delivered (R403), and the group learns of it. -/
def trapped (c : Cause) (a : W64) (s : State) : State :=
  let t := takeTrap c a (2 ^ s.grp.idx) s
  { t with grp := { t.grp with trap := some (c, a) } }

/-- The instruction traps, with the TRADDR that the spec states, or with one that it leaves open (log 12). -/
def TrapsAt (i : Instr) (c : Cause) (a : W64) (s : State) : Prop := exec i s = .next (trapped c a s)
def Traps (i : Instr) (c : Cause) (s : State) : Prop := TrapsAt i c (freeAddr s) s

/-! ## Guards -/

/-- The uniform guard of a slot that has one (R28, R34). -/
def uniformGuard : Instr → Option (Fin 16)
  | .add g _ _ _ | .sub g _ _ _ | .mul g _ _ _ | .mulh g _ _ _ | .mulhu g _ _ _ | .div g _ _ _ | .divu g _ _ _
  | .rem g _ _ _ | .remu g _ _ _ | .and g _ _ _ | .or g _ _ _ | .xor g _ _ _ | .andn g _ _ _ | .shl g _ _ _
  | .shr g _ _ _ | .sar g _ _ _ | .rotl g _ _ _ | .min g _ _ _ | .max g _ _ _ | .minu g _ _ _ | .maxu g _ _ _
  | .addsat g _ _ _ | .clz g _ _ | .ctz g _ _ | .popc g _ _ | .bfx g _ _ _ | .bfi g _ _ _ | .sext g _ _ _
  | .ceq g _ _ _ | .cne g _ _ _ | .clt g _ _ _ | .cltu g _ _ _ | .cle g _ _ _ | .cleu g _ _ _ | .mov g _ _
  | .ldb g _ _ _ | .ldh g _ _ _ | .ldw g _ _ _ | .ldd g _ _ _ | .stb g _ _ _ | .sth g _ _ _ | .stw g _ _ _
  | .std g _ _ _ | .ldc g _ _ _ | .ldro g _ _ _ | .ldpm g _ _ _ | .stpm g _ _ _ | .sysRd g _ _ | .sysWr g _ _
  | .timeRd g _ _ | .roinv g | .tlbInv g _ _ | .mset g _ _ | .msetMxstat g _ | .mget g _ _ | .mgetMxstat g _
  | .cpSrc g _ _ _ _ | .cpDst g _ _ _ _ | .cpShp g _ _ _ | .cpFmt g _ _ | .cpFmtCtl g _ _ | .cpGo g _ _ _ _ _ _ _
  | .cpFill g _ _ _ | .cpStat g _ _ _ | .cpCancel g _ _ | .cpTdef g _ _ | .resAlloc g _ _ | .resLoad g _ _
  | .resPin g _ | .resUnpin g _ _ | .resRevoke g _ | .resReload g _ | .resQ g _ _ | .rmaConn g _ _
  | .rmaConnClose g _ | .rmaPut g _ _ _ | .rmaGet g _ _ _ _ | .rmaRed g _ _ _ _ | .rmaStat g _ _ | .chSend g _ _
  | .chRecv g _ | .chRed g _ _ | .chBcast g _ _ | .chAgat g _ _ | .chWait g _ _ _ _ | .chQ g _ _ | .atQ g _ _ _ _ _
  | .kvApp g _ _ _ _ | .pmRd g _ _ | .pmWrSeq g _ | .pmWrUnit g _ | .pmRebal g _ _ _ | .pxHash g _ _ | .pxLook g _ _
  | .pxPin g _ _ | .pxUnpin g _ _ | .pxIns g _ _ | .tierIn g _ _ _ _ | .tmMatch g _ _ _ | .tmMerge g _ _ _ _
  | .tmUnmrg g _ _ _ | .tmFree g _ | .tmSpill g _ _ | .tmFill g _ _ | .jr g _ _ _ | .lset g _ _ | .fmtSet g _ _
  | .fmtGet g _ | .phin g _ | .fence g _ _ | .barInit g _ _ | .barArr g _ | .barWait g _ _ | .waita g _ _ _ _
  | .tspawn g _ _ | .texit g | .trap g _ | .fuse g _ | .decpl g | .rejoin g | .prio g _ | .sctPin g _ _
  | .sctRel g _ _ | .halt g => some g
  | _ => none

/-- The lane guard of a V slot that has one (R28, R34). -/
def laneGuard : Instr → Option (Fin 8)
  | .vadd g _ _ _ _ | .vsub g _ _ _ _ | .vmul g _ _ _ _ | .vfma g _ _ _ _ | .vfms g _ _ _ _ | .vfnma g _ _ _ _
  | .vmin g _ _ _ _ | .vmax g _ _ _ _ | .vabs g _ _ _ | .vneg g _ _ _ | .vdiv g _ _ _ _ | .vsqrt g _ _ _
  | .vrcp g _ _ _ | .vrsqrt g _ _ _ | .vexp2 g _ _ _ | .vlog2 g _ _ _ | .vand g _ _ _ _ | .vor g _ _ _ _
  | .vxor g _ _ _ _ | .vshl g _ _ _ _ | .vshr g _ _ _ _ | .vsar g _ _ _ _ | .vmulh g _ _ _ _ | .vdot4 g _ _ _ _
  | .vceq g _ _ _ _ | .vcne g _ _ _ _ | .vclt g _ _ _ _ | .vcle g _ _ _ _ | .vcun g _ _ _ _ | .vmov g _ _ _
  | .vbcast g _ _ _ | .vext g _ _ _ _ | .vins g _ _ _ _ | .vperm g _ _ _ _ | .vrot g _ _ _ _ | .vred g _ _ _ _
  | .vscan g _ _ _ _ | .vsticky g _ _ | .vstclr g _ _ | .vcvt g _ _ _ _ _ | .vrnd g _ _ _ _ | .vscl g _ _ _ _
  | .vsp2Enc g _ _ _ _ | .vsp2Dec g _ _ _ _ | .vpk g _ _ _ _ | .vupk g _ _ _ _ _ _ | .vld g _ _ _ _ | .vst g _ _ _ _
  | .vlda g _ _ _ _ | .vsta g _ _ _ | .vldc g _ _ _ | .vstc g _ _ _ | .vgat g _ _ _ _ | .vsct g _ _ _ | .vpf g _ _ _
  | .vlgsz g _ _ _ _ => some g
  | _ => none

/-! ## One step -/

/-- The next step issues a group of the running context, alone on its core: nothing stands on the agenda, and nothing keeps
the context's next group; of a gang, no other member traps with it (log 14); its task has been started (R154). -/
def issuesNext (s : State) : Prop :=
  s.agenda = [] ∧ s.pkg.inReset = false ∧ s.c2.live = false ∧ ready s.c = true ∧ s.c.compare = none ∧ s.c.id.twin = false
    ∧ (s.c.id.gsize = 0 ∨ Config.mateTrap s.tick = none) ∧ s.c.late = [] ∧ s.c.id.unfit = false ∧ s.c.waits = [] ∧ heldWrite s.c = false ∧ refetching s = false

/-- The machine as the group at its pc finds it: the results due have taken effect (R47). -/
def atGroup (s : State) : State := { applyDue s with grp := { Grp.none with pc := (applyDue s).c.a.pc } }

/-- The words of the group at the pc, and the machine once they are fetched: the pc is a group start and the group has no
fault of form or decoding (R38, R42 to R44). -/
def fetches (s : State) (ws : List W32) (t : State) : Prop :=
  (∃ u, checkStart (atGroup s).c.a.pc (atGroup s) = .ok u ∧ fetchWords (atGroup s).c.a.pc 8 u = .ok (ws, t))
    ∧ offender ws = none ∧ decodeMask ws = 0

/-- The machine in which slot k of a group runs. -/
def slotState (k : Nat) (ws : List W32) (s t : State) : State :=
  let u := openGroup (startGroup (atGroup s).c.a.pc ws t)
  { u with grp := { u.grp with idx := k, trap := none, stall := none, reload := [], race := false, depth := none } }

/-- What a step adds once a group has taken its turn: the package's own work where it is due (log 26), and the time that
passes. -/
def stepped (issued : Bool) (s : State) : Host.Outcome State Fault Refusal :=
  .next (afterStep (if issued && s.tick % 16 ≠ 15 then s else progress s))

/-! ## Memory and invariants -/

/-- The three memories of the machine are in canonical form (log 10). -/
def State.canonical (s : State) : Prop :=
  Memory.wf s.pkg.mem = true ∧ Memory.wf s.core.as = true ∧ Memory.wf s.core.cb = true

end Sys2Proof.Machine
end

