-- ==== Sys2Proof/Certificates/Slice0/Obligations.lean ====
section
/-! DEFINITION. The statements for the provers. Each docstring names the rules of spec/ it formalises. -/

open Sys2Proof Sys2Proof.Machine

/-! ## Scalar and branch instructions (04) -/

/-- R104: each of the 22 two-operand instructions computes x from a and b and performs Write(D, x, L), and does nothing
else; the divides never trap. -/
def Obligations.ScalarArithmeticResults : Prop :=
  ∀ (g : Fin 16) (d : Dst) (a b : Src) (s : State), guardOn g s = true → canRead2 a b s = true →
    canWrite d (after2 a b s) = true →
    let x := valueOf a s
    let y := valueB a b s
    let k := y.toNat % 64
    let out (v : W64) (l : Nat) : Host.Outcome State Fault Refusal :=
      .next (wrote d v (taint2 a b s || predTaint s.c (guardReg g)) l (after2 a b s))
    exec (.add g d a b) s = out (x + y) 1 ∧ exec (.sub g d a b) s = out (x - y) 1
      ∧ exec (.mul g d a b) s = out (x * y) 3
      ∧ exec (.mulh g d a b) s = out (BitVec.ofInt 64 (x.toInt * y.toInt / 2 ^ 64)) 3
      ∧ exec (.mulhu g d a b) s = out (BitVec.ofNat 64 (x.toNat * y.toNat / 2 ^ 64)) 3
      ∧ exec (.div g d a b) s = out (if y = 0 then 0xFFFFFFFFFFFFFFFF else BitVec.ofInt 64 (x.toInt.tdiv y.toInt)) 12
      ∧ exec (.divu g d a b) s = out (if y = 0 then 0xFFFFFFFFFFFFFFFF else BitVec.ofNat 64 (x.toNat / y.toNat)) 12
      ∧ exec (.rem g d a b) s = out (if y = 0 then x else BitVec.ofInt 64 (x.toInt.tmod y.toInt)) 12
      ∧ exec (.remu g d a b) s = out (if y = 0 then x else BitVec.ofNat 64 (x.toNat % y.toNat)) 12
      ∧ exec (.and g d a b) s = out (x &&& y) 1 ∧ exec (.or g d a b) s = out (x ||| y) 1
      ∧ exec (.xor g d a b) s = out (x ^^^ y) 1 ∧ exec (.andn g d a b) s = out (x &&& ~~~y) 1
      ∧ exec (.shl g d a b) s = out (x <<< k) 1 ∧ exec (.shr g d a b) s = out (x >>> k) 1
      ∧ exec (.sar g d a b) s = out (x.sshiftRight k) 1 ∧ exec (.rotl g d a b) s = out (x.rotateLeft k) 1
      ∧ exec (.min g d a b) s = out (if x.toInt < y.toInt then x else y) 1
      ∧ exec (.max g d a b) s = out (if x.toInt < y.toInt then y else x) 1
      ∧ exec (.minu g d a b) s = out (if x.toNat < y.toNat then x else y) 1
      ∧ exec (.maxu g d a b) s = out (if x.toNat < y.toNat then y else x) 1
      ∧ exec (.addsat g d a b) s
          = out (BitVec.ofInt 64 (max (-(2 ^ 63)) (min (2 ^ 63 - 1) (x.toInt + y.toInt)))) 1

/-- R105, R106, R108, R109: counts, bit fields, select and move. The field of bfx and bfi has position p, width w and sign
flag X as the descriptor b gives them, its width cut at bit 63; bfi replaces the field's bits in the old value of D; sel
writes a or b by the uniform bit of its selector, and reads both. -/
def Obligations.ScalarFieldResults : Prop :=
  (∀ (g : Fin 16) (d : Dst) (a : Src) (s : State), guardOn g s = true → canRead a s = true →
    canWrite d (afterRead a s) = true →
    let x := valueOf a s
    let out (v : W64) : Host.Outcome State Fault Refusal :=
      .next (wrote d v (taintOf a s || predTaint s.c (guardReg g)) 1 (afterRead a s))
    exec (.mov g d a) s = out x
      ∧ exec (.popc g d a) s = out (BitVec.ofNat 64 ((List.range 64).countP (fun i => x.getLsbD i)))
      ∧ (∃ n, exec (.clz g d a) s = out (BitVec.ofNat 64 n) ∧ n ≤ 64
          ∧ (∀ i, i < n → x.getLsbD (63 - i) = false) ∧ (n < 64 → x.getLsbD (63 - n) = true))
      ∧ (∃ n, exec (.ctz g d a) s = out (BitVec.ofNat 64 n) ∧ n ≤ 64
          ∧ (∀ i, i < n → x.getLsbD i = false) ∧ (n < 64 → x.getLsbD n = true)))
  ∧ (∀ (g : Fin 16) (d : Dst) (r : Reg) (a b : Src) (s : State), guardOn g s = true → canRead2 a b s = true →
    let x := valueOf a s
    let y := valueB a b s
    let t := taint2 a b s || predTaint s.c (guardReg g)
    let p := y.toNat % 64
    let w := min (y.toNat / 64 % 128) (64 - p)
    let k := y.toNat % 64
    (canWrite d (after2 a b s) = true →
      (∃ v, exec (.bfx g d a b) s = .next (wrote d v t 1 (after2 a b s))
        ∧ ∀ i, i < 64 → v.getLsbD i =
          if i < w then x.getLsbD (p + i) else (y.getLsbD 13 && decide (0 < w) && x.getLsbD (p + w - 1)))
      ∧ (∃ v, exec (.sext g d a b) s = .next (wrote d v t 1 (after2 a b s))
        ∧ ∀ i, i < 64 → v.getLsbD i = if i ≤ k then x.getLsbD i else x.getLsbD k))
    ∧ (awaits (atStart s).c (.reg r) = false →
      ∃ v, exec (.bfi g r a b) s
          = .next (wrote (.reg r) v (taint2 a b s || s.c.a.sTaint.getLsbD r || predTaint s.c (guardReg g)) 1 (after2 a b s))
        ∧ ∀ i, i < 64 → v.getLsbD i = if p ≤ i ∧ i < p + w then x.getLsbD (i - p) else (s.c.a.s[r]).getLsbD i))
  ∧ (∀ (p : Fin 16) (d : Dst) (a b : Src) (s : State), canRead2 a b s = true → canWrite d (after2 a b s) = true →
    exec (.sel p d a b) s
      = .next (wrote d (if predUni s.c (guardReg p) then valueOf a s else valueB a b s)
          (taint2 a b s || predTaint s.c (guardReg p)) 1 (after2 a b s)))

/-- R107: a compare writes all 64 lane bits of predicate D equal to its condition, one group later, and with them its uniform
bit; where the guard is false the predicate keeps its value. -/
def Obligations.ScalarCompareResults : Prop :=
  ∀ (g : Fin 16) (p : Reg) (a b : Src) (s : State),
    (guardOn g s = false → ∀ i ∈ [Instr.ceq g p a b, .cne g p a b, .clt g p a b, .cltu g p a b, .cle g p a b, .cleu g p a b],
      exec i s = .next s)
    ∧ (guardOn g s = true → canRead2 a b s = true →
      let x := valueOf a s
      let y := valueB a b s
      let lanes (c : Bool) : LaneMask := if c then BitVec.allOnes 64 else 0
      let out (c : Bool) : Host.Outcome State Fault Refusal :=
        .next (sched (.p p (lanes c) (taint2 a b s || predTaint s.c (guardReg g))) 1 (after2 a b s))
      (exec (.ceq g p a b) s = out (decide (x = y)) ∧ exec (.cne g p a b) s = out (decide (x ≠ y))
        ∧ exec (.clt g p a b) s = out (decide (x.toInt < y.toInt)) ∧ exec (.cltu g p a b) s = out (decide (x.toNat < y.toNat))
        ∧ exec (.cle g p a b) s = out (decide (x.toInt ≤ y.toInt)) ∧ exec (.cleu g p a b) s = out (decide (x.toNat ≤ y.toNat)))
      ∧ ∀ (c t : Bool) (u : State), p ≠ 0 →
        let w := (applyEff (.p p (lanes c) t) u).c.a
        w.p[p] = lanes c ∧ w.pUni.getLsbD p = c)

/-- R98: br and jal on a predicate that is not uniform trap NONUNIFORM_BRANCH with TRADDR zero, taken or not. -/
def branchesNeedUniform : Prop :=
  ∀ (p : Reg) (n : Bool) (off : W16) (s : State), predUniform s.c p = false →
    ∀ i ∈ [Instr.br p n off, Instr.jal p n off], ∃ t, exec i s = .next t ∧ t.grp.trap = some (.nonuniformBranch, 0)
      ∧ t.c = (takeTrap .nonuniformBranch 0 (2 ^ s.grp.idx) s).c

/-- R110 to R112: on a uniform predicate br and jal transfer to the group start plus four times the offset where the
uniform bit xor N is 1 and otherwise do nothing; jal links the following group in s30. loop counts down and transfers
while its counter exceeds 1. jr transfers to a + b and links in D where D is not 0. lset loads a counter. On a predicate that is not
uniform br and jal trap (R98). In a gang whose members' targets differ br, jal, loop and jr trap FUSE (R397, log 14).
Choices of the model it rests on: log 12 (a TRADDR that no rule states is free); log 14 (companions of a gang are free). -/
def Obligations.TransferResults : Prop :=
  branchesNeedUniform ∧
  (∀ (p : Reg) (n : Bool) (off : W16) (k : Fin 4) (g : Fin 16) (d : Reg) (a b : Src) (s : State), s.c.id.gsize ≠ 0 →
    Config.gangParts s.tick = true →
    (predUniform s.c p = true → Traps (.br p n off) .fuse s ∧ Traps (.jal p n off) .fuse s) ∧ Traps (.loop k off) .fuse s
      ∧ (guardOn g s = true → canRead2 a b s = true → Traps (.jr g d a b) .fuse s))
  ∧ (∀ (p : Reg) (n : Bool) (off : W16) (s : State), predUniform s.c p = true →
    s.c.id.gsize = 0 ∨ Config.gangParts s.tick = false →
    let t := s.grp.pc + off.signExtend 64 * 4
    let taken := predUni s.c p != n
    exec (.br p n off) s = .next (if taken then { s with grp := { s.grp with target := some t } } else s)
      ∧ (taken = false → exec (.jal p n off) s = .next s)
      ∧ (taken = true → awaits (atStart s).c (.reg 30) = false →
        exec (.jal p n off) s
          = .next (sched (.s 30 s.grp.nx (predTaint s.c p)) 1 { s with grp := { s.grp with target := some t } })))
  ∧ (∀ (n : Fin 4) (off : W16) (s : State), s.c.id.gsize = 0 ∨ Config.gangParts s.tick = false →
    let c := s.c.a.lc[n]
    (1 < c.toNat → exec (.loop n off) s
      = .next (sched (.lc n (c - 1)) 1 { s with grp := { s.grp with target := some (s.grp.pc + off.signExtend 64 * 4) } }))
    ∧ (c.toNat ≤ 1 → exec (.loop n off) s = .next (sched (.lc n 0) 1 s)))
  ∧ (∀ (g : Fin 16) (d : Reg) (a b : Src) (s : State), guardOn g s = true → canRead2 a b s = true →
    s.c.id.gsize = 0 ∨ Config.gangParts s.tick = false →
    let u := { after2 a b s with grp := { s.grp with target := some (valueOf a s + valueB a b s) } }
    (d = 0 → exec (.jr g d a b) s = .next u)
    ∧ (d ≠ 0 → awaits (atStart s).c (.reg d) = false → exec (.jr g d a b) s
        = .next (sched (.s d s.grp.nx (taint2 a b s || predTaint s.c (guardReg g))) 1 u)))
  ∧ (∀ (g : Fin 16) (n : Fin 4) (a : Src) (s : State), guardOn g s = true → canRead a s = true →
    exec (.lset g n a) s = .next (sched (.lc n (BitVec.ofNat 32 (valueOf a s).toNat)) 1 (afterRead a s)))

/-- R113, R93: lane i of PD by the table, for all 64 lanes, one group later; when the write falls due the uniform bit of PD is 1
where all 64 lanes are 1 and else 0, and p0 keeps its value. -/
def Obligations.PredicateLogicResults : Prop :=
  (∀ (r : Reg) (k : LaneMask) (t : Bool) (u : State),
    (r ≠ 0 → let w := (applyEff (.p r k t) u).c.a
      w.p[r] = k ∧ w.pUni.getLsbD r = decide (k = BitVec.allOnes 64)
        ∧ ∀ q : Reg, q ≠ r → w.p[q] = u.c.a.p[q] ∧ w.pUni.getLsbD q = u.c.a.pUni.getLsbD q)
    ∧ (r = 0 → applyEff (.p r k t) u = u))
  ∧ ∀ (pd pa pb : Reg) (v : Bool) (s : State),
    let x := predLanes s.c pa
    let y := predLanes s.c pb
    let out (k : LaneMask) (t : Bool) : Host.Outcome State Fault Refusal := .next (sched (.p pd k t) 1 s)
    let t := predTaint s.c pa || predTaint s.c pb
    exec (.pand pd pa pb) s = out (x &&& y) t ∧ exec (.por pd pa pb) s = out (x ||| y) t
      ∧ exec (.pxor pd pa pb) s = out (x ^^^ y) t ∧ exec (.pandn pd pa pb) s = out (x &&& ~~~y) t
      ∧ exec (.pnot pd pa) s = out (~~~x) (predTaint s.c pa)
      ∧ (∃ k, exec (.pany pd pa pb) s = out k t
          ∧ ∀ i, i < 64 → k.getLsbD i = (List.range 64).any (fun j => x.getLsbD j && y.getLsbD j))
      ∧ (∃ k, exec (.pall pd pa pb) s = out k t
          ∧ ∀ i, i < 64 → k.getLsbD i = (List.range 64).all (fun j => x.getLsbD j || !y.getLsbD j))
      ∧ exec (.pset pd v) s = out (if v then BitVec.allOnes 64 else 0) false

/-! ## Vector instructions (05) and conversions (03) -/

/-- R114, R116, R117, R132 to R136: where the format of FMT.VT is one the entry accepts, at least one lane is enabled, the
operands can be read and the result written, a vector instruction of the element frame delivers its result after its latency,
each enabled element computed from the same element of its operands; under STO each element rounds with the state of its lane,
stepped once for each element of the lane, and the states step with it (R80). The taint of a destination that keeps some lanes
counts (R34, R118, log 73). Where the entry does not accept the format, the instruction traps FORMAT; those whose entries accept the
three classes never do, since FMT.VT gives no other format.
Choices of the model it rests on: log 12 (a TRADDR that no rule states is free); log 20 (FORMAT before the traps of
operands); log 27 (lanes kept over a scalar latch are free); log 73 (lanes kept give taint). -/
def Obligations.VectorElementResults : Prop :=
  (∀ (g : Fin 8) (q : Bool) (d : Dst) (a b : Src) (s : State), vGuard g s ≠ 0 →
    let f := vtOf s.c.a.fmt
    (f ∉ classF ++ classI → ∀ i ∈ [Instr.vadd g q d a b, .vsub g q d a b, .vmul g q d a b], Traps i .format s)
    ∧ (f ∉ classF → Traps (.vdiv g q d a b) .format s ∧ Traps (.vsqrt g q d a) .format s)
    ∧ f ∈ classF ++ class8 ++ classI
    ∧ (f ∉ classI → ∀ i ∈ [Instr.vshl g q d a b, .vshr g q d a b, .vsar g q d a b, .vmulh g q d a b], Traps i .format s)
    ∧ (f ∉ classE → ∀ i ∈ [Instr.vrcp g q d a, .vrsqrt g q d a, .vexp2 g q d a, .vlog2 g q d a], Traps i .format s))
  ∧ (∀ (g : Fin 8) (q : Bool) (d : Dst) (a b : Src) (s : State), vGuard g s ≠ 0 → canRead2V a b s = true →
    canWriteV d (after2V a b s) = true →
    let m := s.c.a.fmt
    let f := vtOf m
    let w := widthOf f
    let x := vectorOf f a s
    let y := vectorB f a b s
    let lat (lf li : Nat) : Nat := if f ∈ classF then lf else li
    let ok (rounds : Bool) (l : Nat) (op : W64 → Fmt → Nat → Nat → W32 → Nat × Flags6) (i : Instr) : Prop :=
      ∃ n fl xs, exec i s
          = .next (deliveredV d q n fl xs (taint2V a b s || predTaint s.c (guardRegV g) || keptTaint f (vGuard g s) d s) l
              (after2V a b s))
        ∧ ((rounds && fpFormat f && isSto m) = false →
          Elementwise f (vGuard g s) (fun j => op m f (elem x w j) (elem y w j) 0) (keptV d s) n fl xs s.c.a.lanes)
        ∧ Roundwise f (vGuard g s) (rounds && fpFormat f && isSto m) (fun j => op m f (elem x w j) (elem y w j)) (keptV d s) n fl xs
          s.c.a.lanes
    (f ∈ classF ++ classI →
      ok true (lat 4 2) (binElem fadd (fun a b => a + b)) (.vadd g q d a b)
        ∧ ok true (lat 4 2) (binElem (fun m x y => fadd m x y.flip) (fun a b => a - b)) (.vsub g q d a b)
        ∧ ok true (lat 5 3) (binElem (fun _ x y => fmul x y) (fun a b => a * b)) (.vmul g q d a b))
    ∧ (f ∈ classF → ok true 14 (binElem (fun _ x y => fdiv x y) (fun a _ => a)) (.vdiv g q d a b))
    ∧ (f ∈ classF ++ class8 ++ classI →
      ok false 2 (fun m f a b _ => minMaxElem false m f a b) (.vmin g q d a b)
        ∧ ok false 2 (fun m f a b _ => minMaxElem true m f a b) (.vmax g q d a b))
    ∧ (f ∈ classI →
      ok false 2 (fun _ _ a b _ => (a * 2 ^ (b % w), 0)) (.vshl g q d a b)
        ∧ ok false 2 (fun _ _ a b _ => (a / 2 ^ (b % w), 0)) (.vshr g q d a b)
        ∧ ok false 2 (fun _ _ a b _ => (wrapN w (sextN w a / (2 ^ (b % w) : Nat)), 0)) (.vsar g q d a b)
        ∧ ok false 3 (fun _ f a b _ => (wrapN w (intValue (kindOf f) a * intValue (kindOf f) b / (2 ^ w : Nat)), 0))
            (.vmulh g q d a b)))
  ∧ (∀ (g : Fin 8) (q : Bool) (d : Dst) (a : Src) (s : State), vGuard g s ≠ 0 → canReadV a s = true →
    canWriteV d (afterReadV a s) = true →
    let m := s.c.a.fmt
    let f := vtOf m
    let w := widthOf f
    let x := vectorOf f a s
    let ok (rounds : Bool) (l : Nat) (op : W64 → Fmt → Nat → W32 → Nat × Flags6) (i : Instr) : Prop :=
      ∃ n fl xs, exec i s
          = .next (deliveredV d q n fl xs (taintOfV a s || predTaint s.c (guardRegV g) || keptTaint f (vGuard g s) d s) l
              (afterReadV a s))
        ∧ ((rounds && fpFormat f && isSto m) = false →
          Elementwise f (vGuard g s) (fun j => op m f (elem x w j) 0) (keptV d s) n fl xs s.c.a.lanes)
        ∧ Roundwise f (vGuard g s) (rounds && fpFormat f && isSto m) (fun j => op m f (elem x w j)) (keptV d s) n fl xs
          s.c.a.lanes
    (f ∈ classF ++ class8 ++ classI →
      ok false 2 (fun m f a _ => absNeg false m f a) (.vabs g q d a)
        ∧ ok false 2 (fun m f a _ => absNeg true m f a) (.vneg g q d a))
    ∧ (f ∈ classF → ok true 14 (transElem (fun _ => fsqrt)) (.vsqrt g q d a))
    ∧ (f ∈ classE →
      ok true 8 (transElem (fun _ => rcpVal)) (.vrcp g q d a)
        ∧ ok true 8 (transElem (fun _ => rsqrtVal)) (.vrsqrt g q d a)
        ∧ ok true 8 (transElem (fun _ => exp2Val)) (.vexp2 g q d a)
        ∧ ok true 8 (transElem (fun m x => log2Val x (m = .rdn))) (.vlog2 g q d a)))

/-- R133, R137: vfma, vfms and vfnma round a × b + d, a × b − d and −(a × b) + d once, d being the old element of D; vdot4
adds the products of the integer elements of each lane to the lane's 32-bit accumulator. Under STO each element rounds with its
lane's state, which steps (R80). Each traps FORMAT where its entry does not accept the format of FMT.VT.
Choices of the model it rests on: log 12 (a TRADDR that no rule states is free); log 20 (FORMAT before the traps of
operands); log 27 (lanes kept over a scalar latch are free); log 73 (lanes kept give taint). -/
def Obligations.VectorFusedResults : Prop :=
  (∀ (g : Fin 8) (q : Bool) (d : Reg) (a b : Src) (s : State), vGuard g s ≠ 0 →
    (vtOf s.c.a.fmt ∉ classF → ∀ i ∈ [Instr.vfma g q d a b, .vfms g q d a b, .vfnma g q d a b], Traps i .format s)
    ∧ (vtOf s.c.a.fmt ∉ [Fmt.int8, .uint8, .int16] → Traps (.vdot4 g q d a b) .format s))
  ∧ ∀ (g : Fin 8) (q : Bool) (d : Reg) (a b : Src) (s : State), vGuard g s ≠ 0 → canRead2V a b s = true →
    awaitsV (atStart s).c (.reg d) = false →
    let m := s.c.a.fmt
    let f := vtOf m
    let w := widthOf f
    let x := vectorOf f a s
    let y := vectorB f a b s
    let z := s.c.a.v[d]
    let t := taint2V a b s || s.c.a.vTaint.getLsbD d || predTaint s.c (guardRegV g)
    let ok (flipA flipD : Bool) (i : Instr) : Prop :=
      ∃ n fl xs, exec i s = .next (deliveredV (.reg d) q n fl xs t 6 (after2V a b s))
        ∧ ∀ k, kindOf f = .fp k →
          let o (e : Nat) : Val := k.operand (dnOf m) e
          let neg (b : Bool) (v : Val) : Val := if b then v.flip else v
          let one (j : Nat) (st : W32) : Nat × Flags6 :=
            deliver k (roundingOf m st) (ffma (rmOf m) (neg flipA (o (elem x w j))) (o (elem y w j)) (neg flipD (o (elem z w j))))
          (isSto m = false → Elementwise f (vGuard g s) (fun j => one j 0) z n fl xs s.c.a.lanes)
            ∧ Roundwise f (vGuard g s) (isSto m) one z n fl xs s.c.a.lanes
    (f ∈ classF →
      ok false false (.vfma g q d a b) ∧ ok false true (.vfms g q d a b) ∧ ok true false (.vfnma g q d a b))
    ∧ (f ∈ [Fmt.int8, .uint8, .int16] →
      ∃ n fl xs, exec (.vdot4 g q d a b) s = .next (deliveredV (.reg d) q n fl xs t 4 (after2V a b s))
        ∧ Elementwise .int32 (vGuard g s) (fun i => dot4Lane m f (lane x i) (lane y i) (lane z i)) z n fl xs s.c.a.lanes)

/-- R134, R136, R139 to R141: the instructions that move bits without arithmetic. Enabled lanes take the bits the entry
names, other lanes keep theirs; vsel takes every lane from a or b by its selector; vext and vins act on element b mod N where
its lane is enabled, and otherwise write nothing.
Choices of the model it rests on: log 12 (a TRADDR that no rule states is free); log 27 (lanes kept over a scalar latch
are free); log 73 (lanes kept give taint); log 79 (the B operand of vperm). -/
def Obligations.VectorMoveResults : Prop :=
  (∀ (g : Fin 8) (q : Bool) (d : Dst) (a b : Src) (s : State), vGuard g s ≠ 0 →
    let f := vtOf s.c.a.fmt
    let k := vGuard g s
    let byLanes (src : Nat → W32) (l : Nat) (t : Bool) (u : State) (i : Instr) : Prop :=
      ∃ n, exec i s = .next (wroteV d n (t || predTaint s.c (guardRegV g) || keptTaint .fp32 k d s) l u)
        ∧ ∀ j, j < 64 → lane n j = if k.getLsbD j then src j else lane (keptV d s) j
    (canRead2V a b s = true → canWriteV d (after2V a b s) = true →
      let x := vectorOf f a s
      let y := vectorB f a b s
      let c := vectorB .uint32 a b s
      byLanes (fun i => lane x i &&& lane y i) 2 (taint2V a b s) (after2V a b s) (.vand g q d a b)
        ∧ byLanes (fun i => lane x i ||| lane y i) 2 (taint2V a b s) (after2V a b s) (.vor g q d a b)
        ∧ byLanes (fun i => lane x i ^^^ lane y i) 2 (taint2V a b s) (after2V a b s) (.vxor g q d a b)
        ∧ byLanes (fun i => if (lane c i).getLsbD 31 then 0 else lane x ((lane c i).toNat % 64)) 3 (taint2V a b s)
            (after2V a b s) (.vperm g q d a b))
    ∧ (canReadV a s = true → canRead b (afterReadV a s) = true → canWriteV d (afterRead b (afterReadV a s)) = true →
      let n := (valueOf b (afterReadV a s)).toNat % 64
      byLanes (fun i => lane (vectorOf f a s) ((i + n) % 64)) 3 (taintOfV a s || taintOf b (afterReadV a s))
        (afterRead b (afterReadV a s)) (.vrot g q d a b))
    ∧ (canReadV a s = true → canWriteV d (afterReadV a s) = true →
      ∃ n, exec (.vmov g q d a) s = .next (wroteV d n (taintOfV a s || predTaint s.c (guardRegV g) || keptTaint f k d s) 2
          (afterReadV a s))
        ∧ ∀ j, j < countOf f → elem n (widthOf f) j =
          if k.getLsbD (laneOf f j) then elem (vectorOf f a s) (widthOf f) j else elem (keptV d s) (widthOf f) j)
    ∧ (canRead a s = true → canWriteV d (afterRead a s) = true →
      ∃ n, exec (.vbcast g q d a) s = .next (wroteV d n (taintOf a s || predTaint s.c (guardRegV g) || keptTaint f k d s) 3
          (afterRead a s))
        ∧ ∀ j, j < countOf f → elem n (widthOf f) j =
          if k.getLsbD (laneOf f j) then (valueOf a s).toNat % 2 ^ widthOf f else elem (keptV d s) (widthOf f) j))
  ∧ (∀ (p : Fin 8) (d : Dst) (a b : Src) (s : State), canRead2V a b s = true → canWriteV d (after2V a b s) = true →
    let f := vtOf s.c.a.fmt
    ∃ n, exec (.vsel p d a b) s = .next (wroteV d n (taint2V a b s || predTaint s.c (guardRegV p)) 2 (after2V a b s))
      ∧ ∀ j, j < 64 → lane n j = if (vGuard p s).getLsbD j then lane (vectorOf f a s) j else lane (vectorB f a b s) j)
  ∧ (∀ (g : Fin 8) (q : Bool) (d : Dst) (r : Reg) (a b : Src) (s : State), vGuard g s ≠ 0 →
    let f := vtOf s.c.a.fmt
    let w := widthOf f
    (canReadV a s = true → canRead b (afterReadV a s) = true →
      let u := afterRead b (afterReadV a s)
      let j := (valueOf b (afterReadV a s)).toNat % countOf f
      let e := elem (vectorOf f a s) w j
      ((vGuard g s).getLsbD (laneOf f j) = false → exec (.vext g q d a b) s = .next u)
      ∧ ((vGuard g s).getLsbD (laneOf f j) = true → canWrite d u = true →
        exec (.vext g q d a b) s = .next (wrote d
          (match kindOf f with | .int w => sext64 w e | .uint _ | .fp _ => BitVec.ofNat 64 e)
          (taintOfV a s || taintOf b (afterReadV a s) || predTaint s.c (guardRegV g)) 3 u)))
    ∧ (canRead b (afterRead a s) = true →
      let j := (valueB a b s).toNat % countOf f
      ((vGuard g s).getLsbD (laneOf f j) = false → exec (.vins g q r a b) s = .next s)
      ∧ ((vGuard g s).getLsbD (laneOf f j) = true → canRead a s = true → awaitsV (atStart s).c (.reg r) = false →
        ∃ n, exec (.vins g q r a b) s = .next (wroteV (.reg r) n
            (taint2 a b s || s.c.a.vTaint.getLsbD r || predTaint s.c (guardRegV g)) 3 (after2 a b s))
          ∧ ∀ i, i < countOf f → elem n w i = if i = j then (valueOf a s).toNat % 2 ^ w else elem (s.c.a.v[r]) w i)))

/-- R138: a vector compare writes the enabled lane bits of predicate D (an FP64 element's bit stands for both lanes of its
pair), each the AND of its condition over the elements the lane holds, and the other lanes keep theirs; its flags go to the
enabled lanes unless Q. The uniform bit of the predicate follows from its 64 lanes as the write falls due (R93). vcun traps
FORMAT for an integer format; the entries of the others accept every format that FMT.VT gives.
Choices of the model it rests on: log 12 (a TRADDR that no rule states is free); log 20 (FORMAT before the traps of
operands); log 73 (lanes kept give taint); log 78 (FP64 compares). -/
def Obligations.VectorCompareResults : Prop :=
  (∀ (g : Fin 8) (q : Bool) (p : Reg) (a b : Src) (s : State), vGuard g s ≠ 0 →
    vtOf s.c.a.fmt ∈ classF ++ class8 ++ classI
    ∧ (vtOf s.c.a.fmt ∉ classF ++ class8 → Traps (.vcun g q p a b) .format s))
  ∧ (∀ (r : Reg) (k : LaneMask) (t : Bool) (u : State), r ≠ 0 →
    let w := (applyEff (.p r k t) u).c.a
    w.p[r] = k ∧ w.pUni.getLsbD r = decide (k = BitVec.allOnes 64))
  ∧ ∀ (g : Fin 8) (q : Bool) (p : Reg) (a b : Src) (s : State), vGuard g s ≠ 0 → canRead2V a b s = true →
    let f := vtOf s.c.a.fmt
    let w := widthOf f
    let x := vectorOf f a s
    let y := vectorB f a b s
    let ok (c : VCond) (i : Instr) : Prop :=
      ∃ k fl, exec i s = .next
          (let kept := predTaint s.c p && (List.range 64).any (fun i => !laneEnabled f (vGuard g s) i)
            let u := sched (.p p k (taint2V a b s || predTaint s.c (guardRegV g) || kept)) 2 (after2V a b s)
            if q || fl = 0 then u else sched (.sticky fl) 2 u)
        ∧ (∀ i, i < 64 → k.getLsbD i =
            if laneEnabled f (vGuard g s) i then
              (List.range (countOf f)).all (fun j => !(elemsOfLane f i).contains j
                || (condElem c s.c.a.fmt f (elem x w j) (elem y w j)).1)
            else (predLanes s.c p).getLsbD i)
        ∧ ∀ i, i < 64 → laneFlags fl i =
            flagsOfLane f (vGuard g s) (fun j => (condElem c s.c.a.fmt f (elem x w j) (elem y w j)).2) i
    (f ∈ classF ++ class8 ++ classI →
      ok .eq (.vceq g q p a b) ∧ ok .ne (.vcne g q p a b) ∧ ok .lt (.vclt g q p a b) ∧ ok .le (.vcle g q p a b))
    ∧ (f ∈ classF ++ class8 → ok .un (.vcun g q p a b))

/-- R129, R130, R142, R143: vred delivers its tree's value in every enabled element after 8 groups, vscan the prefix values
after 10; the flags of a reduction go to every enabled lane. vsticky copies each enabled lane's flags after 2 groups and
vstclr clears the masked flags of the enabled lanes after 1. vred and vscan trap FORMAT where the format of FMT.VT is none of
their entries'.
Choices of the model it rests on: log 12 (a TRADDR that no rule states is free); log 21 (flags of vred); log 27 (lanes
kept over a scalar latch are free); log 73 (lanes kept give taint); log 80 (the first element of a vscan). -/
def Obligations.VectorReductionResults : Prop :=
  (∀ (g : Fin 8) (q : Bool) (d : Dst) (a : Src) (op : RedOp) (s : State), vGuard g s ≠ 0 → vtOf s.c.a.fmt ∉ classF ++ classI →
    Traps (.vred g q d a op) .format s ∧ Traps (.vscan g q d a op) .format s) ∧
  (∀ (g : Fin 8) (q : Bool) (d : Dst) (a : Src) (op : RedOp) (s : State), vGuard g s ≠ 0 → canReadV a s = true →
    canWriteV d (afterReadV a s) = true → vtOf s.c.a.fmt ∈ classF ++ classI →
    let f := vtOf s.c.a.fmt
    let w := widthOf f
    let k := vGuard g s
    let t := taintOfV a s || predTaint s.c (guardRegV g) || keptTaint f k d s
    (∃ n fl xs, exec (.vred g q d a op) s = .next (deliveredV d q n fl xs t 8 (afterReadV a s))
      ∧ let r := reduce op s.c.a.fmt f k (vectorOf f a s) s.c.a.lanes
        (∀ j, j < countOf f → elem n w j = if k.getLsbD (laneOf f j) then r.1 % 2 ^ w else elem (keptV d s) w j)
        ∧ (∀ i, i < 64 → laneFlags fl i = if k.getLsbD i then r.2.1 else 0) ∧ xs = r.2.2)
    ∧ (∃ n fl xs, exec (.vscan g q d a op) s = .next (deliveredV d q n fl xs t 10 (afterReadV a s))
      ∧ let r := scanElems op s.c.a.fmt f k (vectorOf f a s) s.c.a.lanes
        xs = r.2 ∧ ∀ j, j < countOf f → elem n w j =
          if k.getLsbD (laneOf f j) then (r.1.getD j (0, 0)).1 % 2 ^ w else elem (keptV d s) w j))
  ∧ (∀ (g : Fin 8) (q : Bool) (d : Dst) (m : Flags6) (s : State), vGuard g s ≠ 0 →
    (canWriteV d s = true →
      ∃ n, exec (.vsticky g q d) s = .next (wroteV d n (predTaint s.c (guardRegV g) || keptTaint .fp32 (vGuard g s) d s) 2 s)
        ∧ ∀ i, i < 64 → lane n i =
          if (vGuard g s).getLsbD i then (laneFlags s.c.a.sticky i).zeroExtend 32 else lane (keptV d s) i)
    ∧ ∃ fl, exec (.vstclr g q m) s = .next (sched (.stclr fl) 1 s)
        ∧ ∀ i, i < 64 → laneFlags fl i = if (vGuard g s).getLsbD i then m else 0)


/-- R76, R90, R91: fmt.set replaces the masked bits of FMT four groups later, reserved bits staying zero, and reseeds the
lane states where it writes SEED; a mode above 4 or a format code that is not legal there traps FORMAT. fmt.get reads FMT. -/
def formatRegister : Prop :=
  (∀ (g : Fin 16) (a b : Src) (s : State), guardOn g s = true → canRead2 a b s = true →
    let m := valueB a b s
    let n := mix m s.c.a.fmt (valueOf a s) &&& 0xFFFFFFFF0FFFF3FF
    let legal := (n.extractLsb' 4 3).toNat ≤ 4 ∧ (n.extractLsb' 0 4).toNat ∈ [0, 1, 2, 3, 4, 6, 7, 8, 9, 11, 12, 13]
    (legal → exec (.fmtSet g a b) s = .next (sched (.fmt n m) 4 (after2 a b s)))
    ∧ (¬ legal → Traps (.fmtSet g a b) .format s))
  ∧ (∀ (n m : W64) (s : State), (applyEff (.fmt n m) s).c.a.fmt = n
    ∧ (applyEff (.fmt n m) s).c.a.lanes = if m.toNat < 2 ^ 32 then s.c.a.lanes else seedLanes (n.extractLsb' 32 32))
  ∧ ∀ (g : Fin 16) (d : Dst) (s : State), guardOn g s = true → canWrite d s = true →
    exec (.fmtGet g d) s = .next (wrote d s.c.a.fmt (predTaint s.c (guardReg g)) 1 s)

/-- R83 to R89: the conversions. vcvt converts part H of the wider register, and traps FORMAT where there is no such part or
there would be eight; vqnt and vdqn make and read a block image of 64 elements; vrnd, vscl, vsp2, vpk and vupk act element by
element or lane by lane; vrnd, vscl and vpk trap FORMAT where the format of FMT.VT is none of their entries'. Where the elements
of vcvt, vqnt and vdqn round under STO the statement leaves their values to the rounding. fmt.set and fmt.get write and read FMT
(R76, R90, R91).
Choices of the model it rests on: log 12 (a TRADDR that no rule states is free); log 20 (FORMAT before the traps of
operands); log 21 (flags of vred); log 27 (lanes kept over a scalar latch are free); log 73 (lanes kept give taint); log
85 (vqnt under STO); log 86 (constants of vdqn and vsp2.dec); log 87 (flags of vsp2.enc); log 109 (vsp2 and STO). -/
def Obligations.ConversionResults : Prop :=
  formatRegister ∧
  (∀ (g : Fin 8) (q : Bool) (d : Dst) (a : Src) (h : Fin 4) (t : Fmt) (s : State), vGuard g s ≠ 0 → canReadV a s = true →
    canWriteV d (afterReadV a s) = true →
    let m := s.c.a.fmt
    let f := vtOf m
    let n := min (countOf f) (countOf t)
    let parts := max (countOf f) (countOf t) / n
    let dst := if countOf f < countOf t then h.val * n else 0
    let src := if countOf t < countOf f then h.val * n else 0
    (parts = 8 ∨ parts ≤ h.val → Traps (.vcvt g q d a h t) .format s)
    ∧ (parts ≠ 8 → h.val < parts → ∃ r fl xs, exec (.vcvt g q d a h t) s
          = .next (deliveredV d q r fl xs (taintOfV a s || predTaint s.c (guardRegV g)
              || (oldTaint d s && (n < countOf t || someOff t (vGuard g s)))) 4 (afterReadV a s))
        ∧ (isSto m = false → xs = s.c.a.lanes ∧ ∀ j, j < countOf t →
          elem r (widthOf t) j =
            if dst ≤ j ∧ j < dst + n ∧ (vGuard g s).getLsbD (laneOf t j) = true then
              (convertElem f t (roundingOf m 0) (elem (vectorOf f a s) (widthOf f) (j - dst + src))).1 % 2 ^ widthOf t
            else elem (keptV d s) (widthOf t) j)))
  ∧ (∀ (q : Bool) (d : Dst) (a : Src) (t : BlockFmt) (s : State), canReadV a s = true → canWriteV d (afterReadV a s) = true →
    let m := s.c.a.fmt
    let x := vectorOf .fp32 a s
    let v (i : Nat) : Val := fpFP32.operand (dnOf m) (elem x 32 i)
    let block (j : Nat) : BlockCase := blockCase t [v (4 * j), v (4 * j + 1), v (4 * j + 2), v (4 * j + 3)]
    (∃ r fl xs, exec (.vqnt q d a t) s = .next (deliveredV d q r fl xs (taintOfV a s) 6 (afterReadV a s))
      ∧ (∀ j, j < 16 → blockScaleAt t r.toNat j = scaleByte (block j) % 256)
      ∧ (isSto m = false → xs = s.c.a.lanes ∧ ∀ i, i < 64 → blockElemAt t r.toNat i =
          (blockEncode t (block (i / 4)) (roundingOf m 0) (v i)).1 % 2 ^ widthOf (blockElem t)))
    ∧ ∃ r fl xs, exec (.vdqn q d a t) s = .next (deliveredV d q r fl xs (taintOfV a s) 4 (afterReadV a s))
      ∧ (isSto m = false → xs = s.c.a.lanes ∧ ∀ i, i < 64 → elem r 32 i =
          (match blockValue t (blockElemAt t x.toNat i) with
            | .num y => if blockScaleAt t x.toNat (i / 4) = 0xFF then fpFP32.nanBits
              else (roundTo fpFP32 (roundingOf m 0) (y.scale ((blockScaleAt t x.toNat (i / 4) : Int) - 127))).1
            | _ => fpFP32.nanBits) % 2 ^ 32))
  ∧ (∀ (g : Fin 8) (q : Bool) (d : Dst) (a b : Src) (s : State), vGuard g s ≠ 0 →
    let m := s.c.a.fmt
    let f := vtOf m
    let k := vGuard g s
    (∀ (z : RndSel) (p : FpFmt), canReadV a s = true → canWriteV d (afterReadV a s) = true → f ∈ classF ++ class8 →
      kindOf f = .fp p → ∃ r fl xs, exec (.vrnd g q d a z) s
          = .next (deliveredV d q r fl xs (taintOfV a s || predTaint s.c (guardRegV g) || keptTaint f k d s) 4
              (afterReadV a s))
        ∧ (rndMode m z ≠ .sto → Elementwise f k
          (fun j => rndElem p (rndMode m z) m (elem (vectorOf f a s) (widthOf f) j) 0) (keptV d s) r fl xs s.c.a.lanes)
        ∧ Roundwise f k (decide (rndMode m z = .sto))
          (fun j => rndElem p (rndMode m z) m (elem (vectorOf f a s) (widthOf f) j)) (keptV d s) r fl xs s.c.a.lanes)
    ∧ (canRead2V a b s = true → canWriteV d (after2V a b s) = true → f ∈ classF ++ class8 →
      ∃ r fl xs, exec (.vscl g q d a b) s
          = .next (deliveredV d q r fl xs (taint2V a b s || predTaint s.c (guardRegV g) || keptTaint f k d s) 4
              (after2V a b s))
        ∧ (isSto m = false → Elementwise f k (fun j =>
          sclElem m f (elem (vectorOf f a s) (widthOf f) j) (lane (vectorB .int32 a b s) (laneOf f j)).toInt 0)
          (keptV d s) r fl xs s.c.a.lanes)
        ∧ Roundwise f k (isSto m) (fun j =>
          sclElem m f (elem (vectorOf f a s) (widthOf f) j) (lane (vectorB .int32 a b s) (laneOf f j)).toInt)
          (keptV d s) r fl xs s.c.a.lanes)
    ∧ (f ∉ classF ++ class8 → (∀ z : RndSel, Traps (.vrnd g q d a z) .format s) ∧ Traps (.vscl g q d a b) .format s)
    ∧ (widthOf f ∉ [8, 16] → Traps (.vpk g q d a b) .format s)
    ∧ (∀ h : Fin 4, canReadV a s = true → canWriteV d (afterReadV a s) = true →
      let x := vectorOf .fp32 a s
      let t := taintOfV a s || predTaint s.c (guardRegV g)
      let e (i : Nat) : Nat × Flags6 := sp2Encode (fpFP32.operand (dnOf m) (elem x 32 i))
      (∃ r fl, exec (.vsp2Enc g q d a h) s = .next (deliveredV d q r fl s.c.a.lanes (t || oldTaint d s) 4 (afterReadV a s))
        ∧ (∀ j, j < 256 → elem r 8 j = if j / 64 = h.val ∧ k.getLsbD (j / 4) = true then (e (j % 64)).1 % 256 else elem (keptV d s) 8 j)
        ∧ ∀ i, i < 64 → laneFlags fl i = if k.getLsbD i then (e i).2 else 0)
      ∧ ∃ r fl xs, exec (.vsp2Dec g q d a h) s
          = .next (deliveredV d q r fl xs (t || keptTaint .fp32 k d s) 4 (afterReadV a s))
        ∧ Elementwise .fp32 k (fun i => roundTo fpFP32 ⟨.rne, 0, false, false⟩ (sp2Value (elem x 8 (64 * h.val + i))))
          (keptV d s) r fl xs s.c.a.lanes)
    ∧ (canRead2V a b s = true → canWriteV d (after2V a b s) = true → widthOf f ∈ [8, 16] →
      ∃ r, exec (.vpk g q d a b) s
          = .next (wroteV d r (taint2V a b s || predTaint s.c (guardRegV g) || keptTaint .fp32 k d s) 3 (after2V a b s))
        ∧ ∀ i, i < 64 → lane r i =
          let x := lane (vectorOf f a s) i
          let y := lane (vectorB f a b s) i
          if k.getLsbD i then
            (if widthOf f = 16 then y.extractLsb' 0 16 ++ x.extractLsb' 0 16
              else y.extractLsb' 16 8 ++ x.extractLsb' 16 8 ++ y.extractLsb' 0 8 ++ x.extractLsb' 0 8)
          else lane (keptV d s) i)
    ∧ (∀ (x w : Bool) (j : Fin 4), canReadV a s = true → canWriteV d (afterReadV a s) = true →
      ∃ r, exec (.vupk g q d a x w j) s
          = .next (wroteV d r (taintOfV a s || predTaint s.c (guardRegV g) || keptTaint .fp32 k d s) 3 (afterReadV a s))
        ∧ ∀ i, i < 64 → lane r i =
          let y := lane (vectorOf f a s) i
          if k.getLsbD i then
            (match w, x with
              | true, true => (y.extractLsb' (8 * j.val) 8).signExtend 32
              | true, false => (y.extractLsb' (8 * j.val) 8).zeroExtend 32
              | false, true => (y.extractLsb' (16 * j.val) 16).signExtend 32
              | false, false => (y.extractLsb' (16 * j.val) 16).zeroExtend 32)
          else lane (keptV d s) i))

/-! ## Memory (06) and atomics (07) -/

/-- R171, R172: roinv moves the read-only bound of the context to the present; tlb.inv, a supervisor's, removes the entries of
the context's ASID that its mode names, and traps PRIV in user mode and ILLEGAL for mode 3. Memory is not changed. -/
def cacheControl : Prop :=
  (∀ (g : Fin 16) (s : State), guardOn g s = true →
    exec (.roinv g) s = .next (s.withC { s.c with roBound := s.pkg.hist.length }))
  ∧ ∀ (g : Fin 16) (a b : Src) (s : State), guardOn g s = true →
    (s.c.id.sup = false → Traps (.tlbInv g a b) .priv s)
    ∧ (s.c.id.sup = true → canRead2 a b s = true →
      let x := valueOf a s
      let mode := (valueB a b s).toNat % 4
      let gone (e : TlbEnt) : Prop := e.asid = asidOf s.c.a ∧
        ((mode = 0 ∧ spaceOf x < 4 ∧ e.space = spaceOf x ∧ x.toNat % 2 ^ 48 / 2 ^ e.log = e.page) ∨ mode = 1
          ∨ (mode = 2 ∧ e.space = 5 ∧ e.tid = x.toNat % 1024))
      (mode = 3 → Traps (.tlbInv g a b) .illegal s)
      ∧ (mode ≠ 3 → ∃ l, exec (.tlbInv g a b) s = .next ((after2 a b s).withPkg { (after2 a b s).pkg with tlb := l })
        ∧ ∀ e, e ∈ l ↔ e ∈ s.pkg.tlb ∧ ¬ gone e))

/-- R146 to R148: the walk of the four levels. A root with V = 0 maps nothing; level by level the entry that the offset indexes
is missing where it is not valid, a leaf where L is set or at level 3, and else leads to the next table. -/
def fourLevelWalk : Prop :=
  ∀ (mem : Cells) (root : W64) (off : Nat),
    (root.getLsbD 0 = false → walkRoot mem root off = .missing none 0)
    ∧ (root.getLsbD 0 = true →
      let a0 := root.toNat / 2 ^ 17 % 2 ^ 35 * 2 ^ 17 + 8 * (off / 2 ^ 34 % 2 ^ 14)
      let e0 := getNum mem a0 8
      let a1 := pteFrame e0 + 8 * (off / 2 ^ 30 % 2 ^ 4)
      let e1 := getNum mem a1 8
      let a2 := pteFrame e1 + 8 * (off / 2 ^ 21 % 2 ^ 9)
      let e2 := getNum mem a2 8
      let a3 := pteFrame e2 + 8 * (off / 2 ^ 16 % 2 ^ 5)
      let e3 := getNum mem a3 8
      (pteValid e0 = false → walkRoot mem root off = .missing (some a0) 0)
      ∧ (pteValid e0 = true →
        (pteLeaf e0 = true → walkRoot mem root off = .leaf e0 34)
        ∧ (pteLeaf e0 = false →
          (pteValid e1 = false → walkRoot mem root off = .missing (some a1) 1)
          ∧ (pteValid e1 = true →
            (pteLeaf e1 = true → walkRoot mem root off = .leaf e1 30)
            ∧ (pteLeaf e1 = false →
              (pteValid e2 = false → walkRoot mem root off = .missing (some a2) 2)
              ∧ (pteValid e2 = true →
                (pteLeaf e2 = true → walkRoot mem root off = .leaf e2 21)
                ∧ (pteLeaf e2 = false →
                  (pteValid e3 = false → walkRoot mem root off = .missing (some a3) 3)
                  ∧ (pteValid e3 = true → walkRoot mem root off = .leaf e3 16))))))))

/-- R146, R147, R160: the address under a leaf, and what a leaf permits: the mode needs U unless it is a supervisor's, and the
access R, W, both or X. -/
def leafFields : Prop :=
  ∀ (pte log off : Nat) (sup : Bool),
    leafPa pte log off = (pte / 2 ^ 16 % 2 ^ 36 * 2 ^ 16) / 2 ^ log * 2 ^ log + off % 2 ^ log
    ∧ permits .read sup pte = ((sup || pte.testBit 5) && pte.testBit 1)
    ∧ permits .write sup pte = ((sup || pte.testBit 5) && pte.testBit 2)
    ∧ permits .both sup pte = ((sup || pte.testBit 5) && (pte.testBit 1 && pte.testBit 2))
    ∧ permits .fetch sup pte = ((sup || pte.testBit 5) && pte.testBit 3)

/-- R146 to R149, R160, R161, R165: the physical address of an access. A TLB entry that covers the offset gives its leaf;
else the walk through the four levels does, and the TLBs then hold it. The leaf's permission comes first (ACCESS), then a severed pool region
(POOL_REGION); a missing mapping freezes the context, or traps UNMAPPED once the MMP has found none. Nothing but the TLBs
changes. tlb.inv drops what the TLBs hold, and roinv moves the
bound that read-only loads may reach back to (R171, R172).
Choices of the model it rests on: log 12 (a TRADDR that no rule states is free). -/
def Obligations.TranslationResults : Prop :=
  cacheControl ∧ fourLevelWalk ∧ leafFields ∧
  (∀ (space : Nat) (k : Access) (va : W64) (s : State),
    let off := va.toNat % 2 ^ 48
    let through (pte log : Nat) (u : State) : Prop :=
      let pa := leafPa pte log off
      (permits k s.c.id.sup pte = false → paOf space k va s = .error (.trap .access none))
      ∧ (permits k s.c.id.sup pte = true → paExists pa = true → severed s.pkg pa = true →
        paOf space k va s = .error (.trap .poolRegion (some va)))
      ∧ (permits k s.c.id.sup pte = true → paExists pa = true → severed s.pkg pa = false → paOf space k va s = .ok (pa, u))
    (∀ e, tlbFind s.pkg.tlb (asidOf s.c.a) space off = some e → through e.pte.toNat e.log s)
    ∧ (tlbFind s.pkg.tlb (asidOf s.c.a) space off = none →
      (∀ pte log, walkRoot s.pkg.mem (rootOf s.c.a space) off = .leaf pte log →
        through pte log (s.withPkg { s.pkg with
          tlb := ⟨asidOf s.c.a, space, 0, off / 2 ^ log, log, BitVec.ofNat 64 pte, 0⟩ :: s.pkg.tlb }))
      ∧ ∀ pa lv, walkRoot s.pkg.mem (rootOf s.c.a space) off = .missing pa lv →
        paOf space k va s = if va ∈ s.c.unmapped then .error (.trap .unmapped (some va))
          else .error (.freeze ⟨va, space, k.code, pa, lv⟩)))
  ∧ ∀ (space : Nat) (k : Access) (va : W64) (s : State) (pa : Nat) (t : State), paOf space k va s = .ok (pa, t) →
    ∃ l, t = s.withPkg { s.pkg with tlb := l }

/-- R159, R160, R166 to R170, R304: a scalar load checks its address, then its alignment, then translates; it then waits as an
outstanding operation for the n bytes at the address, each forwarded from the newest earlier store of the phase that holds
it; a load of another node whose bytes the phase's own stores all hold sends no request. ldc also taints its result; ldro reads
device space and sees no store of the phase; ldpm reads PM below PMSIZE, and traps ADDRESS on an address of space 1.
Choices of the model it rests on: log 12 (a TRADDR that no rule states is free); log 17 (the layout of AUX). -/
def Obligations.ScalarLoadResults : Prop :=
  ∀ (g : Fin 16) (d : Dst) (a b : Src) (s : State), guardOn g s = true → canRead2 a b s = true →
    let u := after2 a b s
    let ea := valueOf a s + valueB a b s
    let t := taint2 a b s || predTaint s.c (guardReg g)
    let load (n : Nat) (c : Bool) (i : Instr) : Prop :=
      (addressOk true ea u = false → Traps i .address s)
      ∧ (addressOk true ea u = true → ea.toNat % n ≠ 0 → Traps i .misalign s)
      ∧ (addressOk true ea u = true → ea.toNat % n = 0 →
        (spaceOf ea ≠ 1 → ∀ pa v, paOf (spaceOf ea) .read ea u = .ok (pa, v) → canWrite d v = true →
          exec i s = .next (issueOp { memOp (.load ((List.range n).map (fun j => (0 + j, localByte (visibleBuf v) (pa + j)))))
            (.scalar d) (t || c) t (claimed d v) with dep := c } (claimed d v)))
        ∧ (spaceOf ea = 1 → canWrite d u = true →
          let off := ea.toNat % 2 ^ 48
          let bytes := (List.range n).map (fun j => (j, remoteByte (visibleBuf u) (nodeOf ea) (off + j)))
          let op (k : MKind) : MemOp := { memOp k (.scalar d) (t || c) t (claimed d u) with dep := c }
          (allForwarded bytes = true → exec i s = .next (issueOp (op (.load bytes)) (claimed d u)))
          ∧ (allForwarded bytes = false → remoteRoom (nodeOf ea) 32 t false false u = .ok () →
            exec i s = .next (issueFetch (nodeOf ea) bytes (op (.remoteLoad (nodeOf ea) off bytes)) (claimed d u)))))
    load 1 false (.ldb g d a b) ∧ load 2 false (.ldh g d a b) ∧ load 4 false (.ldw g d a b) ∧ load 8 false (.ldd g d a b)
      ∧ load 8 true (.ldc g d a b)
      ∧ (spaceOf ea ≠ 0 ∨ nodeOf ea ≠ 0 → Traps (.ldro g d a b) .address s)
      ∧ (spaceOf ea = 0 → nodeOf ea = 0 → ea.toNat % 8 ≠ 0 → Traps (.ldro g d a b) .misalign s)
      ∧ (spaceOf ea = 0 → nodeOf ea = 0 → ea.toNat % 8 = 0 → ∀ pa v, paOf 0 .read ea u = .ok (pa, v) → canWrite d v = true →
        let w := claimed d v
        exec (.ldro g d a b) s = .next (issueOp (memOp
          (.loadRo ((List.range 8).map (fun j => (j, .mem (pa + j)))) w.c.roBound w.pkg.hist.length) (.scalar d) t t w) w))
      ∧ (spaceOf ea = 1 → Traps (.ldpm g d a b) .address s)
      ∧ (spaceOf ea ≠ 1 → ea.toNat % 8 ≠ 0 → Traps (.ldpm g d a b) .misalign s)
      ∧ (spaceOf ea ≠ 1 → ea.toNat % 8 = 0 → fieldOf s.c.a.pmsize 47 16 * 2 ^ 16 < ea.toNat + 8 → Traps (.ldpm g d a b) .bounds s)
      ∧ (ea.toNat % 8 = 0 → ea.toNat + 8 ≤ fieldOf s.c.a.pmsize 47 16 * 2 ^ 16 →
        ∀ pa v, paOf 4 .read ea u = .ok (pa, v) → canWrite d v = true →
          exec (.ldpm g d a b) s = .next (issueOp (memOp
            (.load ((List.range 8).map (fun j => (0 + j, localByte (visibleBuf v) (pa + j))))) (.scalar d) t t (claimed d v))
            (claimed d v)))

/-- R159, R160, R167, R170, R305: a scalar store checks its address and alignment, translates, and joins the phase's buffered
set with the low n bytes of its register; memory itself is not written. A 513th sector, or a 129th remote item, traps
BUFFER_FULL.
Choices of the model it rests on: log 12 (a TRADDR that no rule states is free). -/
def Obligations.ScalarStoreResults : Prop :=
  ∀ (g : Fin 16) (d : Reg) (a b : Src) (s : State), guardOn g s = true → canRead2 a b s = true →
    awaits (atStart s).c (.reg d) = false →
    let u := after2 a b s
    let ea := valueOf a s + valueB a b s
    let into (pa n : Nat) (v : State) (i : Instr) : Prop :=
      let w := cellsAt pa (bytesOf n (s.c.a.s[d]).toNat)
      ((sectors (v.c.buf ++ [.store w])).length ≤ 512 → exec i s = .next (buffer (.store w) v))
      ∧ (512 < (sectors (v.c.buf ++ [.store w])).length → Traps i .bufferFull s)
    let store (n : Nat) (i : Instr) : Prop :=
      (addressOk true ea u = false → Traps i .address s)
      ∧ (addressOk true ea u = true → ea.toNat % n ≠ 0 → Traps i .misalign s)
      ∧ (addressOk true ea u = true → ea.toNat % n = 0 →
        (spaceOf ea ≠ 1 → ∀ pa v, paOf (spaceOf ea) .write ea u = .ok (pa, v) → into pa n v i)
        ∧ (spaceOf ea = 1 →
          (remoteItems u.c.buf < 128 → exec i s
            = .next (buffer (.remote (nodeOf ea) (ea.toNat % 2 ^ 48) (bytesOf n (s.c.a.s[d]).toNat)) u))
          ∧ (128 ≤ remoteItems u.c.buf → Traps i .bufferFull s)))
    store 1 (.stb g d a b) ∧ store 2 (.sth g d a b) ∧ store 4 (.stw g d a b) ∧ store 8 (.std g d a b)
      ∧ (spaceOf ea = 1 → Traps (.stpm g d a b) .address s)
      ∧ (spaceOf ea ≠ 1 → ea.toNat % 8 ≠ 0 → Traps (.stpm g d a b) .misalign s)
      ∧ (spaceOf ea ≠ 1 → ea.toNat % 8 = 0 → fieldOf s.c.a.pmsize 47 16 * 2 ^ 16 < ea.toNat + 8 → Traps (.stpm g d a b) .bounds s)
      ∧ (ea.toNat % 8 = 0 → ea.toNat + 8 ≤ fieldOf s.c.a.pmsize 47 16 * 2 ^ 16 →
        ∀ pa v, paOf 4 .write ea u = .ok (pa, v) → into pa 8 v (.stpm g d a b))

/-- R203: an atomic checks its address and its alignment of 8, translates for reading and writing, emits the phase, and waits
as an outstanding operation with its ordering and scope; at another node its request is injected.
Choices of the model it rests on: log 12 (a TRADDR that no rule states is free); log 17 (the layout of AUX). -/
def Obligations.AtomicResults : Prop :=
  ∀ (o : AOrd) (sc : AScope) (d : Dst) (r : Reg) (a b : Src) (s : State), canRead2 a b s = true →
    let u := after2 a b s
    let ea := valueOf a s
    let at_ (op : AtomOp) (d : Dst) (e : W64) (t : Bool) (i : Instr) : Prop :=
      let mark (k : MKind) (w : State) : MemOp :=
        { memOp k (.scalar d) t t w with acq := o = .acq || o = .acqrel, rel := o = .rel || o = .acqrel, scope := sc }
      (addressOk true ea u = false → Traps i .address s)
      ∧ (addressOk true ea u = true → ea.toNat % 8 ≠ 0 → Traps i .misalign s)
      ∧ (addressOk true ea u = true → ea.toNat % 8 = 0 →
        (spaceOf ea ≠ 1 → ∀ pa v, paOf (spaceOf ea) .both ea u = .ok (pa, v) → canWrite d v = true →
          exec i s = .next (issueOp (mark (.atom op pa (valueB a b s) e) (claimed d v)) (emit (claimed d v))))
        ∧ (spaceOf ea = 1 → remoteRoom (nodeOf ea) 32 t (o = .rel || o = .acqrel) (wideScope sc) u = .ok () →
          canWrite d u = true →
          let off := ea.toNat % 2 ^ 48
          let data := bytesOf 8 (valueB a b s).toNat ++ (if op = .cas then bytesOf 8 e.toNat else [])
          let w := claimed d u
          exec i s = .next (emit (issueRemote 2 (nodeOf ea) off (BitVec.ofNat 64 (atomCode op)) data
            (mark (.remoteAtom (nodeOf ea) off op (valueB a b s) e) w) w))))
    let t := taint2 a b s
    at_ .add d 0 t (.atomAdd o sc d a b) ∧ at_ .min d 0 t (.atomMin o sc d a b) ∧ at_ .max d 0 t (.atomMax o sc d a b)
      ∧ at_ .and d 0 t (.atomAnd o sc d a b) ∧ at_ .or d 0 t (.atomOr o sc d a b) ∧ at_ .xor d 0 t (.atomXor o sc d a b)
      ∧ at_ .xchg d 0 t (.atomXchg o sc d a b)
      ∧ (awaits (atStart s).c (.reg r) = false →
        at_ .cas (.reg r) s.c.a.s[r] (t || s.c.a.sTaint.getLsbD r) (.atomCas o sc r a b))

/-- R50, R159, R184, R203, R262, R432: the data of the k-th operation of the running context arrives. An operation that the orders
of chapter 7 hold back stays as it is, and one whose words are still to be transferred from HBM waits for them. Poison among its
bytes is consumed. Else a load delivers the bytes at its places; an atomic delivers the old doubleword and writes the new one,
except that a compare that fails writes nothing; a read-only load delivers memory as it was at some point from its bound to its
issue; a read of MXSTAT delivers what it took; the operation is then no longer outstanding. Where nothing is wrong with HBM the
transfers change nothing.
Choices of the model it rests on: log 4 (which committed version an ldro reads is free); log 28 (a load reads its bytes
when they arrive); log 106 (L2 sectors, HBM writes and the order of words). -/
def Obligations.DataArrivalResults : Prop :=
  ∀ (k : Nat) (o : MemOp) (s : State), s.c.ops[k]? = some o →
    let v := fetchHbm o.places s
    let u := unfetch o.places v
    (s.pkg.hbm.quiet = true → s.pkg.hbm.fetched = [] → v = s ∧ u = s ∧ hbmReady v.pkg.hbm o.places = true)
    ∧ (o.isLocal = false ∨ mayPerform s k o = false → exec (.loadDataArrival k false) s = .next s)
    ∧ (o.isLocal = true → mayPerform s k o = true → hbmReady v.pkg.hbm o.places = false →
      exec (.loadDataArrival k false) s = .next v)
    ∧ (o.isLocal = true → mayPerform s k o = true → hbmReady v.pkg.hbm o.places = true →
      (∀ a, o.places.find? (poisoned v.pkg) = some a → exec (.loadDataArrival k false) s = .next (consumeLate (BitVec.ofNat 64 a) u))
      ∧ (o.places.any (poisoned v.pkg) = false →
        (∀ l, o.kind = .load l → exec (.loadDataArrival k false) s
          = .next (landResult o (l.map (fun b => (b.1, match b.2 with | .fwd x => x | .mem pa => getByte u.pkg.mem pa))) (dropOp k u)))
        ∧ (∀ op pa b e, o.kind = .atom op pa b e →
          let x : W64 := BitVec.ofNat 64 (getNum u.pkg.mem pa 8)
          let old := cellsAt 0 (bytesOf 8 x.toNat)
          let wrote (y : W64) : State := landResult o old (dropOp k (writeMem (cellsAt pa (bytesOf 8 y.toNat)) u))
          exec (.loadDataArrival k false) s = .next (match op with
            | .add => wrote (x + b)
            | .min => wrote (if x.toInt < b.toInt then x else b)
            | .max => wrote (if x.toInt < b.toInt then b else x)
            | .and => wrote (x &&& b)
            | .or => wrote (x ||| b)
            | .xor => wrote (x ^^^ b)
            | .xchg => wrote b
            | .cas => if x = e then wrote b else landResult o old (dropOp k u)))
        ∧ (∀ l lo hi, o.kind = .loadRo l lo hi → lo ≤ hi → hi ≤ s.pkg.hist.length →
          ∃ n, s.pkg.hist.length - hi ≤ n ∧ n ≤ s.pkg.hist.length - lo ∧ exec (.loadDataArrival k false) s
            = .next (landResult o (readBytes (asBefore u.pkg.mem u.pkg.hist n) l) (dropOp k u)))
        ∧ ∀ eng opens got, o.kind = .stat eng opens got → exec (.loadDataArrival k false) s
          = .next (landResult o (cellsAt 0 (bytesOf 8 (withOpen (got.getD u.c.a.mxstat) opens).toNat)) (dropOp k u))))

/-- R173, R176: vld and vst move the 32-bit words of the enabled lanes, lane i at the address plus 4i, all in one space and at
one node, aligned to 4, or they trap ADDRESS, MISALIGN, or BOUNDS of PM, in this order; a store joins the buffered set in lane order,
and one of another node that would be its 129th remote item traps BUFFER_FULL. The taint of the lanes that a load keeps counts
(log 73). vpf changes nothing.
Choices of the model it rests on: log 12 (a TRADDR that no rule states is free); log 17 (the layout of AUX); log 22
(vector lanes across a node boundary); log 27 (lanes kept over a scalar latch are free); log 31 (poison and its address);
log 73 (lanes kept give taint). -/
def Obligations.VectorMemoryResults : Prop :=
  ∀ (g : Fin 8) (pm : Bool) (d : Dst) (r : Reg) (a b : Src) (s : State), vGuard g s ≠ 0 → canRead2 a b s = true →
    let u := after2 a b s
    let ea := valueOf a s + valueB a b s
    let t := taint2 a b s || predTaint s.c (guardRegV g)
    let k := vGuard g s
    let kt := t || keptTaint .fp32 k d s
    let l := (List.range 64).filter (fun i => k.getLsbD i)
    let va := ea + BitVec.ofNat 64 (4 * l.headD 0)
    let off (i : Nat) := (ea + BitVec.ofNat 64 (4 * i)).toNat % 2 ^ 48
    let at_ (i : Nat) : W64 := ea + BitVec.ofNat 64 (4 * i)
    let astray : Prop := ∃ i ∈ l, addressOk true (at_ i) u = false ∨ spaceOf (at_ i) ≠ spaceOf va ∨ nodeOf (at_ i) ≠ nodeOf va
    let outside : Prop := ∃ i ∈ l, fieldOf s.c.a.pmsize 47 16 * 2 ^ 16 < (at_ i).toNat + 4
    let checks (i : Instr) : Prop :=
      (pm = false → astray → Traps i .address s) ∧ (pm = false → ¬ astray → ea.toNat % 4 ≠ 0 → Traps i .misalign s)
      ∧ (pm = true → (∃ i ∈ l, spaceOf (at_ i) = 1) → Traps i .address s)
      ∧ (pm = true → (∀ i ∈ l, spaceOf (at_ i) ≠ 1) → ea.toNat % 4 ≠ 0 → Traps i .misalign s)
      ∧ (pm = true → (∀ i ∈ l, spaceOf (at_ i) ≠ 1) → ea.toNat % 4 = 0 → outside → Traps i .bounds s)
    exec (.vpf g pm a b) s = .next s
    ∧ checks (.vld g pm d a b) ∧ (awaitsV (atStart s).c (.reg r) = false → checks (.vst g pm r a b))
    ∧ (ea.toNat % 4 = 0 → (∀ i ∈ l, addressOk true (ea + BitVec.ofNat 64 (4 * i)) u = true
          ∧ spaceOf (ea + BitVec.ofNat 64 (4 * i)) = spaceOf va ∧ nodeOf (ea + BitVec.ofNat 64 (4 * i)) = nodeOf va) →
        vecSpace false k ea u = .ok (spaceOf va))
    ∧ ((∃ i ∈ l, spaceOf (ea + BitVec.ofNat 64 (4 * i)) = 1) → vecSpace true k ea u = .error (.trap .address none))
    ∧ (ea.toNat % 4 = 0 → (∀ i ∈ l, (ea + BitVec.ofNat 64 (4 * i)).toNat + 4 ≤ fieldOf s.c.a.pmsize 47 16 * 2 ^ 16) →
        vecSpace true k ea u = .ok 4)
    ∧ (∀ sp, vecSpace pm k ea u = .ok sp →
      (sp ≠ 1 → ∀ pas v, lanePas sp .read ea l u = .ok (pas, v) → canWriteV d u = true → canWriteV d v = true →
        exec (.vld g pm d a b) s = .next (issueOp (memOp
          (.load (pas.flatMap (fun p => (List.range 4).map (fun j => (4 * p.1 + j, localByte (visibleBuf (claimed d v)) (p.2 + j))))))
          (.vector d (keptV d s)) kt t (claimed d v)) (claimed d v)))
      ∧ (sp = 1 → canWriteV d u = true →
        let bytes := l.flatMap (fun i => (List.range 4).map (fun j =>
          (4 * i + j, remoteByte (visibleBuf u) (nodeOf va) (off i + j))))
        let op (m : MKind) : MemOp := memOp m (.vector d (keptV d s)) kt t (claimed d u)
        (allForwarded bytes = true → exec (.vld g pm d a b) s = .next (issueOp (op (.load bytes)) (claimed d u)))
        ∧ (allForwarded bytes = false → remoteRoom (nodeOf va) 256 t false false u = .ok () → exec (.vld g pm d a b) s
          = .next (issueFetch (nodeOf va) bytes (op (.remoteLoad (nodeOf va) (off (l.headD 0)) bytes)) (claimed d u))))
      ∧ (awaitsV (atStart s).c (.reg r) = false →
        (sp ≠ 1 → ∀ pas v, lanePas sp .write ea l u = .ok (pas, v) →
          let w := pas.flatMap (fun p => cellsAt p.2 (bytesOf 4 (lane s.c.a.v[r] p.1).toNat))
          ((sectors (v.c.buf ++ [.store w])).length ≤ 512 → exec (.vst g pm r a b) s = .next (buffer (.store w) v))
          ∧ (512 < (sectors (v.c.buf ++ [.store w])).length → Traps (.vst g pm r a b) .bufferFull s))
        ∧ (sp = 1 → 128 ≤ remoteItems u.c.buf → Traps (.vst g pm r a b) .bufferFull s)
        ∧ (sp = 1 → remoteItems u.c.buf < 128 →
          exec (.vst g pm r a b) s = .next (buffer (.remoteV (nodeOf va) (off (l.headD 0))
            ((l.map (fun i => (i, off i))).flatMap (fun p => cellsAt p.2 (bytesOf 4 (lane s.c.a.v[r] p.1).toNat)))) u))))

/-- R155, R156, R174: typed-buffer access. A load reads the front half, or with H the back half, as its group finds it; a store
writes the back half one group later. An offset that is not a multiple of 4 traps MISALIGN, bytes outside every region
BOUNDS, and bytes of CB under an open tile TILE_OPEN (within a group, log 82). A load that reads a poisoned byte takes it in (R184,
log 107). The taint of the lanes that a load keeps counts (log 73).
Choices of the model it rests on: log 12 (a TRADDR that no rule states is free); log 27 (lanes kept over a scalar latch
are free); log 36 (typed buffers behind other units); log 73 (lanes kept give taint); log 82 (slot order and open tiles);
log 107 (poisoned bytes of typed buffers). -/
def Obligations.TypedBufferResults : Prop :=
  ∀ (g : Fin 8) (h : Bool) (d : Dst) (r : Reg) (a b : Src) (s : State), vGuard g s ≠ 0 → canRead2 a b s = true →
    let u := after2 a b s
    let ea := valueOf a s + valueB a b s
    let k := vGuard g s
    let t := taint2 a b s || predTaint s.c (guardRegV g)
    let load (cb back : Bool) (i : Instr) : Prop :=
      (ea.toNat % 4 ≠ 0 → Traps i .misalign s)
      ∧ (ea.toNat % 4 = 0 → laneRegion cb k ea u = .error (.trap .bounds none) → Traps i .bounds s)
      ∧ ∀ q, ea.toNat % 4 = 0 → laneRegion cb k ea u = .ok q →
        let covered := cb && (lanesOf k).any (fun i => onTile s.c (ea.toNat + 4 * i) 4)
        let read := (lanesOf k).flatMap (fun i => span (q.phys back (ea.toNat + 4 * i)) 4)
        (covered = true → Traps i .tileOpen s)
        ∧ (covered = false → unitBusy (atStart s).c = false → canWriteV d u = true →
          ∀ b, s.core.bad.find? (fun b => b.1 = cb && read.contains b.2) = some b → Consumes i (BitVec.ofNat 64 b.2) s)
        ∧ (covered = false → unitBusy (atStart s).c = false → s.c.raced = false → canWriteV d u = true → sound cb read s →
          ∃ n, exec i s = .next (wroteV d n (t || keptTaint .fp32 k d s) 4 u) ∧ ∀ j, j < 64 → lane n j =
            if k.getLsbD j then BitVec.ofNat 32 (getNum (s.buf cb) (q.phys back (ea.toNat + 4 * j)) 4) else lane (keptV d s) j)
    let store (cb : Bool) (i : Instr) : Prop :=
      (ea.toNat % 4 ≠ 0 → Traps i .misalign s)
      ∧ (ea.toNat % 4 = 0 → laneRegion cb k ea u = .error (.trap .bounds none) → Traps i .bounds s)
      ∧ ∀ q, ea.toNat % 4 = 0 → laneRegion cb k ea u = .ok q →
        let covered := cb && (lanesOf k).any (fun i => onTile s.c (ea.toNat + 4 * i) 4)
        let w := (lanesOf k).flatMap (fun i => cellsAt (q.phys true (ea.toNat + 4 * i)) (bytesOf 4 (lane s.c.a.v[r] i).toNat))
        (covered = true → Traps i .tileOpen s)
        ∧ (covered = false → unitBusy (atStart s).c = false → s.c.raced = false → behindSource cb w u = .ok () →
          exec i s = .next (sched (.buf cb w) 1 u))
    load false h (.vlda g h d a b) ∧ load true false (.vldc g d a b)
      ∧ (awaitsV (atStart s).c (.reg r) = false → store false (.vsta g r a b) ∧ store true (.vstc g r a b))

/-- R150, R151, R160, R175: vgat and vsct reach the elements of a tensor whose coordinates the enabled lanes hold, after the
checks of TENSOR, BOUNDS, ADDRESS and MISALIGN, in this order; vsct traps TENSOR too where WR is 0. An element under an open tile
traps TILE_OPEN, and a scatter that needs a 513th sector BUFFER_FULL. A gather that reads a poisoned byte takes it in (log 107),
and the taint of the lanes that it keeps counts (log 73). A gathered element fills its lane with zeros above it; a
scatter to global space joins the buffered set in lane order, so that the higher of two lanes that name one element wins.
Choices of the model it rests on: log 12 (a TRADDR that no rule states is free); log 27 (lanes kept over a scalar latch
are free); log 65 (rights of the tensor table); log 73 (lanes kept give taint); log 88 (the address of a tile PTE fault);
log 107 (poisoned bytes of typed buffers). -/
def Obligations.GatherScatterResults : Prop :=
  ∀ (g : Fin 8) (q : Bool) (d : Dst) (r : Reg) (a b : Src) (s : State), vGuard g s ≠ 0 → canReadV a s = true →
    canRead b (afterReadV a s) = true →
    let u := afterRead b (afterReadV a s)
    let x := vectorOf .uint32 a s
    let tid := (valueOf b (afterReadV a s)).toNat % 1024
    let k := vGuard g s
    let t := taintOfV a s || taintOf b (afterReadV a s) || predTaint s.c (guardRegV g)
    (∀ e v, tensorEntry tid u = .ok (e, v) →
      ((e.ok && (e.esz = 1 || e.esz = 2)) = false → Traps (.vgat g q d a b) .tensor s)
      ∧ ((e.ok && (e.esz = 1 || e.esz = 2)) = true →
        (∃ i ∈ lanesOf k, e.inBounds (coords e.rank (lane x i)) = false) → Traps (.vgat g q d a b) .bounds s)
      ∧ (awaitsV (atStart s).c (.reg r) = false →
        ((e.ok && (e.esz = 1 || e.esz = 2) && e.writable) = false → Traps (.vsct g r a b) .tensor s)
        ∧ ((e.ok && (e.esz = 1 || e.esz = 2) && e.writable) = true →
          (∃ i ∈ lanesOf k, e.inBounds (coords e.rank (lane x i)) = false) → Traps (.vsct g r a b) .bounds s)))
    ∧ (∀ wr e ps v w, tensorEntry tid u = .ok (e, v) → (e.ok && (e.esz = 1 || e.esz = 2) && (!wr || e.writable)) = true →
      (∀ i ∈ lanesOf k, e.inBounds (coords e.rank (lane x i)) = true) →
      lanePlaces e tid (if wr then .write else .read) x (lanesOf k) v = .ok (ps, w) →
      (e.space = 0 ∨ ∀ y ∈ ps, placeRegion w.c.regions (e.space = 2) (2 ^ e.esz) y.2 ≠ none) →
      let i : Instr := if wr then .vsct g r a b else .vgat g q d a b
      let reads : Prop := wr = true → awaitsV (atStart s).c (.reg r) = false
      (reads → (∃ y ∈ ps, placeAddressOk w y.2 = false) → Traps i .address s)
      ∧ (reads → (∀ y ∈ ps, placeAddressOk w y.2 = true) → (∃ y ∈ ps, placeAligned (2 ^ e.esz) y.2 = false) → Traps i .misalign s))
    ∧ (∀ e ps v, gatherPlaces .read false tid x k u = .ok (e, ps, v) → e.space = 0 →
      ∀ pas w, placePas .read ps v = .ok (pas, w) → canWriteV d v = true → canWriteV d w = true →
        exec (.vgat g q d a b) s = .next (issueOp (memOp (.load (pas.flatMap (fun p => (List.range 4).map (fun j =>
            (4 * p.1 + j, if j < 2 ^ e.esz then localByte (visibleBuf (claimed d w)) (p.2 + j) else .fwd 0)))))
          (.vector d (keptV d s)) (t || keptTaint .fp32 k d s) t (claimed d w)) (claimed d w)))
    ∧ (awaitsV (atStart s).c (.reg r) = false → ∀ e ps v, gatherPlaces .write true tid x k u = .ok (e, ps, v) →
      (e.space = 0 → ∀ pas w, placePas .write ps v = .ok (pas, w) →
        let c := pas.flatMap (fun p => cellsAt p.2 (bytesOf (2 ^ e.esz) (lane s.c.a.v[r] p.1).toNat))
        ((sectors (w.c.buf ++ [.store c])).length ≤ 512 → exec (.vsct g r a b) s = .next (buffer (.store c) w))
        ∧ (512 < (sectors (w.c.buf ++ [.store c])).length → Traps (.vsct g r a b) .bufferFull s)))
    ∧ (∀ wr e ps v w, tensorEntry tid u = .ok (e, v) → (e.ok && (e.esz = 1 || e.esz = 2) && (!wr || e.writable)) = true →
      (∀ i ∈ lanesOf k, e.inBounds (coords e.rank (lane x i)) = true) → e.space ≠ 0 →
      lanePlaces e tid (if wr then .write else .read) x (lanesOf k) v = .ok (ps, w) →
      (∃ y ∈ ps, placeRegion w.c.regions (e.space = 2) (2 ^ e.esz) y.2 = none) →
      if wr then awaitsV (atStart s).c (.reg r) = false → Traps (.vsct g r a b) .bounds s else Traps (.vgat g q d a b) .bounds s)
    ∧ (∀ wr e ps v, gatherPlaces (if wr then .write else .read) wr tid x k u = .ok (e, ps, v) → e.space ≠ 0 →
      let n := 2 ^ e.esz
      let place (back : Bool) (y : Place) : Nat := placePhys v.c.regions (e.space = 2) back n y
      let covered := e.space = 2 ∧ ∃ y ∈ ps, onTile v.c (placeOff y.2) n = true
      (∀ y ∈ ps, ∃ p, placeRegion v.c.regions (e.space = 2) n y.2 = some p ∧ ∀ h, place h y.2 = p.phys h (placeOff y.2))
      ∧ (covered → (wr = false → canWriteV d v = true → Traps (.vgat g q d a b) .tileOpen s)
        ∧ (wr = true → awaitsV (atStart s).c (.reg r) = false → Traps (.vsct g r a b) .tileOpen s))
      ∧ (¬ covered → unitBusy (atStart v).c = false → wr = false → canWriteV d v = true →
        ∀ y, v.core.bad.find? (fun z => z.1 = decide (e.space = 2) && (ps.flatMap (fun y => span (place false y.2) n)).contains z.2) = some y →
          Consumes (.vgat g q d a b) (BitVec.ofNat 64 y.2) s)
      ∧ (¬ covered → unitBusy (atStart v).c = false → v.c.raced = false →
        (wr = false → canWriteV d v = true → sound (e.space = 2) (ps.flatMap (fun y => span (place false y.2) n)) v → exec (.vgat g q d a b) s = .next (issueOp (memOp (.load (ps.flatMap (fun y =>
            (List.range 4).map (fun j => (4 * y.1 + j, LByte.fwd (if j < n then
              getByte (v.buf (e.space = 2)) (place false y.2 + j) else 0))))))
          (.vector d (keptV d s)) (t || keptTaint .fp32 k d s) t (claimed d v)) (claimed d v)))
        ∧ (wr = true → awaitsV (atStart s).c (.reg r) = false →
          let c := ps.flatMap (fun y => cellsAt (place true y.2) (bytesOf n (lane s.c.a.v[r] y.1).toNat))
          behindSource (e.space = 2) c v = .ok () → exec (.vsct g r a b) s = .next (sched (.buf (e.space = 2) c) 1 v))))

/-! ## Phases, waits and barriers (07), tasks, traps and system registers (15) -/

/-- R178, R181, R201, R246, R402, R403, R413: phase ends the phase at its scope and the context goes on; texit ends it at
package scope and then ends the context; halt, a supervisor's, also halts the core. The commit begins once the matrix work
issued before the group is done and no tile is open; an open tile traps LIVE_REDUCTION. The group that follows is where the
context would resume. What a trap writes to TRADDR is left open (log 12); what a commit does is CommitCompletes, with its
wait for the engines (log 29).
Choices of the model it rests on: log 12 (a TRADDR that no rule states is free); log 29 (when the next phase starts). -/
def Obligations.PhaseEndResults : Prop :=
  ∀ (g : Fin 16) (sc : Scope) (s : State), guardOn g s = true →
    let done (sc : Scope) (e : Ending) : Host.Outcome State Fault Refusal :=
      .next (advanceCommit (s.withC { s.c with a := { s.c.a with pc := s.grp.nx }, commit := some ⟨sc, e, false, false, [], 0⟩ }))
    (s.c.a.inh = true → Traps (.phase sc) .illegal s)
    ∧ (s.c.id.sup = false → Traps (.halt g) .priv s)
    ∧ (matrixBefore s = false →
      (s.c.a.opens = [] →
        (s.c.a.inh = false → exec (.phase sc) s = done sc .goOn) ∧ exec (.texit g) s = done .pkg .texit
          ∧ (s.c.id.sup = true → exec (.halt g) s = done .pkg .halt))
      ∧ (s.c.a.opens ≠ [] →
        (s.c.a.inh = false → Traps (.phase sc) .liveReduction s) ∧ Traps (.texit g) .liveReduction s
          ∧ (s.c.id.sup = true → Traps (.halt g) .liveReduction s)))

/-- R159, R182: performing the buffered stores in issue order writes each byte with the newest store that holds it and leaves
every other byte as it was. -/
def storesCommitInOrder : Prop :=
  ∀ (l : List Cells) (s : State) (a : Nat), Memory.wf s.pkg.mem = true →
    let t := (l.foldl (fun (x : CommitRec × State) w => performOne (.store w) x.1 x.2)
      (⟨.pkg, .goOn, true, true, [], 0⟩, s)).2
    getByte t.pkg.mem a = match (l.flatten.reverse.find? (fun c => c.1 = a)) with
      | some c => c.2
      | none => getByte s.pkg.mem a

/-- R156, R181 to R183, R185, R192, R193, R233, R306, R413: a commit of a phase that has buffered only stores, whose results
have all come and whose engine commands are done. With remote stores of the context still unacknowledged (log 29) a commit at
torus or pool scope, or one that would store, stays open. Otherwise the stores are performed in issue order: memory holds the
newest byte of each address; every pending result but a latch's takes effect, the latches are invalid, the phased regions swap,
taint and the open set are cleared, the machine the next group sees is the new checkpoint, PHSEQ counts by one, and the phase
store buffer is empty; or, for texit and halt, the context has ended, and halt marks each core of the gang halted.
Choices of the model it rests on: log 29 (when the next phase starts); log 101 (results held when a handler ends its
task). -/
def Obligations.CommitCompletes : Prop :=
  storesCommitInOrder ∧
  ∀ (r : CommitRec) (s : State) (l : List Cells), s.c.commit = some r → r.started = false → s.c.ops = [] →
    backWriters s = false → s.c.id.twin = false → s.c.buf = l.map .store →
    let t := advanceCommit s
    let wide := r.scope ∈ [.torus, .pool]
    (remoteUnpublished s = true → (l ≠ [] ∨ wide) →
      t.c.phseq = s.c.phseq ∧ t.c.commit = some { r with started := true, rest := s.c.buf } ∧ t.pkg = s.pkg)
    ∧ (remoteUnpublished s = false ∨ (l = [] ∧ ¬ wide) → (l = [] ∨ unsent s = false) →
      (∀ w ∈ l, waitsQueue s (.store w) = false) →
      (Memory.wf s.pkg.mem = true → ∀ a, getByte t.pkg.mem a = match l.flatten.reverse.find? (fun c => c.1 = a) with
        | some c => c.2
        | none => getByte s.pkg.mem a)
      ∧ (r.ending = .goOn →
        t.c.phseq = s.c.phseq + 1 ∧ t.c.commit = none ∧ t.c.buf = [] ∧ t.c.pend = [] ∧ t.c.emitted = false ∧ t.c.reruns = 0
        ∧ (∀ n : LatchNo, (t.c.latch[n]).val = none)
        ∧ t.c.regions = (takeAllPending s).c.regions.map (fun q => if q.phased then { q with flip := !q.flip } else q)
        ∧ t.c.ck = t.c.a
        ∧ t.c.a = { (takeAllPending s).c.a with sTaint := 0, vTaint := 0, pTaint := 0, mTaint := 0, opens := [], marks := [] })
      ∧ (r.ending ≠ .goOn → t.c.live = false)
      ∧ (r.ending = .halt → ∀ c, halted t.pkg c = (halted s.pkg c || (gangHere s).contains c)))

/-- R202, R204: phin reads PHSEQ and the rerun and emission state of the phase; fence closes a class of accesses or notes the
engine commands issued so far. -/
def phaseStateReads : Prop :=
  (∀ (g : Fin 16) (d : Dst) (s : State), guardOn g s = true → canWrite d s = true →
    let v : W64 := s.c.phseq.extractLsb' 0 48 ++ (BitVec.ofNat 8 s.c.reruns ++ (0#6 ++ (BitVec.ofBool (s.c.reruns ≠ 0)
      ++ BitVec.ofBool s.grp.emitted)))
    exec (.phin g d) s = .next (wrote d v (predTaint s.c (guardReg g)) 1 s))
  ∧ ∀ (g : Fin 16) (e : Bool) (s : State), guardOn g s = true →
    exec (.fence g true e) s = .next (s.withC { s.c with
      fences := s.c.fences + 1, engFence := if e then s.c.engCount else s.c.engFence })
    ∧ exec (.fence g false true) s = .next (s.withC { s.c with engFence := s.c.engCount })

/-- R206 to R209, R394: waita keeps the next group until the 32-bit word holds the value or reaches it, in the back half of a
phased region; bar.init and bar.arr join the buffered set; bar.wait keeps the next group until the generation is reached. A
group the core is no member of, or a member count of 0, traps BARRIER; an aborted group traps GROUP_ABORT; the generation is
compared by the sign of the difference of 32 bits (R209). phin and fence read and close (R202, R204). What a trap writes to
TRADDR is left open (log 12); that the membership is checked before the abort is the model's reading (log 69).
Choices of the model it rests on: log 12 (a TRADDR that no rule states is free); log 69 (gangs and channels). -/
def Obligations.WaitAndBarrierResults : Prop :=
  phaseStateReads ∧
  (∀ (g : Fin 16) (ge cb : Bool) (a b : Src) (s : State), guardOn g s = true → canRead2 a b s = true →
    let x := (valueOf a s).toNat
    (x % 4 ≠ 0 → Traps (.waita g ge cb a b) .misalign s)
    ∧ (x % 4 = 0 → regionAt s.c.regions cb x 4 = none → Traps (.waita g ge cb a b) .bounds s)
    ∧ (x % 4 = 0 → ∀ r, regionAt s.c.regions cb x 4 = some r → exec (.waita g ge cb a b) s
      = .next (waitFor (.word cb (r.phys true x) ((valueB a b s).extractLsb' 0 32) ge) (after2 a b s))))
  ∧ (∀ (s : State) (cb ge : Bool) (off : Nat) (v : W32), waitDone s (.word cb off v ge) =
    decide (if ge then v.toNat ≤ getNum (s.buf cb) off 4 else getNum (s.buf cb) off 4 = v.toNat))
  ∧ (∀ (s : State) (gid : BitVec 8) (i : Nat) (gen : W32), waitDone s (.barrier gid i gen) =
    decide ((0 : Int) ≤ ((barAt s.core i).gen - gen).toInt))
  ∧ ∀ (g : Fin 16) (a b : Src) (s : State), guardOn g s = true →
    let x := valueOf a s
    let gid : BitVec 8 := x.extractLsb' 0 8
    let num : BitVec 8 := x.extractLsb' 8 8
    (canRead2 a b s = true →
      (memberSlot s.core gid = none → Traps (.barInit g a b) .barrier s ∧ Traps (.barWait g a b) .barrier s)
      ∧ (∀ m, memberSlot s.core gid = some m →
        let n : BitVec 16 := (valueB a b s).extractLsb' 0 16
        (n = 0 → Traps (.barInit g a b) .barrier s)
        ∧ (n ≠ 0 → exec (.barInit g a b) s = .next (buffer (.barInit gid num n) (after2 a b s)))
        ∧ (s.pkg.aborted.contains gid = true → Traps (.barWait g a b) .groupAbort s)
        ∧ (s.pkg.aborted.contains gid = false → exec (.barWait g a b) s
          = .next (waitFor (.barrier gid (256 * m + num.toNat) ((valueB a b s).extractLsb' 0 32)) (after2 a b s)))))
    ∧ (canRead a s = true →
      (memberSlot s.core gid = none → Traps (.barArr g a) .barrier s)
      ∧ ((memberSlot s.core gid).isSome = true → s.pkg.aborted.contains gid = true → Traps (.barArr g a) .groupAbort s)
      ∧ ((memberSlot s.core gid).isSome = true → s.pkg.aborted.contains gid = false →
        exec (.barArr g a) s = .next (buffer (.barArr gid num) (afterRead a s))))

/-- R403, R414, R415: the entry of a trap. TRCAUSE, TRMASK, TRPC and TRADDR are written, INH is set, the next group is at
TRVEC, the results still pending are held with the distances they had left, and nothing else of the architectural state
changes; with TRVEC invalid, in a handler, or for the causes that abort (UNCONTAINED, UNCORRECTABLE, DOUBLE_TRAP, and
POOL_REGION where the task does not take it), the context ends instead.
Choices of the model it rests on: log 19 (TRMASK of a trap at decode); log 37 (late traps and rollback); log 101 (results
held when a handler ends its task). -/
def Obligations.TrapEntryResults : Prop :=
  ∀ (c : Cause) (addr : W64) (mask : Nat) (s : State),
    (s.c.a.inh = false → s.c.a.trvec.getLsbD 0 = true → c ∉ [.uncontained, .uncorrectable, .doubleTrap] →
      (c = .poolRegion → s.c.id.prt = true) →
      ∃ q o, takeTrap c addr mask s = s.withC { s.c with
          a := { s.c.a with
            trcause := BitVec.ofNat 64 (causeCode c), trmask := BitVec.ofNat 64 (mask % 256), trpc := s.grp.pc, traddr := addr
            inh := true, pc := s.c.a.trvec &&& 0xFFFFFFFFFFFFFFFC }
          pend := [], held := some q, waits := [], ops := o }
        ∧ q.waits = s.c.waits ∧ q.pend = s.c.pend.map (fun p => ⟨p.due - s.c.gc, p.eff⟩)
        ∧ o.map (·.dst) = s.c.ops.map (·.dst) ∧ ∀ x ∈ o, x.held = true)
    ∧ (s.c.a.inh = true → takeTrap c addr mask s = abort .doubleTrap addr s)
    ∧ (s.c.a.inh = false → s.c.a.trvec.getLsbD 0 = false → takeTrap c addr mask s = abort c addr s)
    ∧ (s.c.a.inh = false → c ∈ [.uncontained, .uncorrectable, .doubleTrap] ∨ (c = .poolRegion ∧ s.c.id.prt = false) →
      takeTrap c addr mask s = abort c addr s)
    ∧ (abort c addr s).c.live = false

/-- R412, R414, R415: tspawn buffers the spawn of 1 to 64 records at a multiple of 64; trap traps SWTRAP with the low 28 bits
of its operand; rfe, in a handler, clears INH, restores what the trap held, and goes to TRPC or to the group after it; in a
gang whose members' targets differ it traps FUSE (R397, log 14).
Choices of the model it rests on: log 12 (a TRADDR that no rule states is free). -/
def Obligations.TaskAndTrapResults : Prop :=
  (∀ (g : Fin 16) (a b : Src) (s : State), guardOn g s = true → canRead2 a b s = true →
    let n := (valueB a b s).toNat % 128
    (n = 0 ∨ 64 < n → Traps (.tspawn g a b) .illegal s)
    ∧ (1 ≤ n → n ≤ 64 → (valueOf a s).toNat % 64 ≠ 0 → Traps (.tspawn g a b) .misalign s)
    ∧ (1 ≤ n → n ≤ 64 → (valueOf a s).toNat % 64 = 0 →
      exec (.tspawn g a b) s = .next (buffer (.spawn (valueOf a s) n) (after2 a b s))))
  ∧ (∀ (g : Fin 16) (a : Src) (s : State), guardOn g s = true → canRead a s = true →
    TrapsAt (.trap g a) .swtrap (valueOf a s &&& 0xFFFFFFF) s)
  ∧ ∀ (n : Bool) (s : State),
    (s.c.a.inh = false → Traps (.rfe n) .illegal s)
    ∧ (s.c.a.inh = true → (atStart s).c.ops.any (fun o => !o.held) = false → s.c.id.gsize ≠ 0 →
      Config.gangParts s.tick = true → Traps (.rfe n) .fuse s)
    ∧ (s.c.a.inh = true → (atStart s).c.ops.any (fun o => !o.held) = false →
      s.c.id.gsize = 0 ∨ Config.gangParts s.tick = false →
      exec (.rfe false) s = .next (returnFrom s.c.a.trpc s)
      ∧ (∀ l u, s.c.a.trpc.toNat % 4 = 0 → fetchWords s.c.a.trpc 8 s = .ok (l, u) →
        exec (.rfe true) s = .next (returnFrom (s.c.a.trpc + BitVec.ofNat 64 (4 * l.length)) u))
      ∧ ∀ (h : Held) (v : W64), s.c.pend = [] → s.c.held = some h →
        let t := returnFrom v s
        t.c.a = { s.c.a with inh := false } ∧ t.c.waits = h.waits ∧ t.c.held = none ∧ t.grp.target = some v
          ∧ t.c.pend = h.pend.map (fun p => ⟨s.c.gc + 1 + p.due, p.eff⟩) ∧ t.c.clock = 0 ∧ t.pkg = s.pkg ∧ t.core = s.core)

/-- R397, R398, R416 to R418: the gang, priority and stream slots with their FUSE and STREAM traps. decpl claims the rejoin
line as it issues, rejoin sets the member's bit and waits, prio limits a user's priority to PRIO of its task, sct.pin
reserves 2 × HALF × 256 bytes at the lowest free offset and pins HOME, and sct.rel needs the context's own active stream.
Choices of the model it rests on: log 12 (a TRADDR that no rule states is free); log 14 (companions of a gang are free);
log 30 (sct.pin and HOME). -/
def Obligations.GangAndStreamResults : Prop :=
  (∀ (g : Fin 16) (f : GangForm) (s : State), guardOn g s = true →
    let size := match f with | .w2 | .t2 => 2 | .w4 => 4
    let may := s.c.id.gsize = 0 ∧ s.c.id.dec = false ∧ Config.coreId.toNat % 16 % size = 0 ∧ s.c.id.link = false
    (may → exec (.fuse g f) s = .next (buffer (.fuse f) s)) ∧ (¬ may → Traps (.fuse g f) .fuse s)
    ∧ (let may := s.c.id.gsize ≠ 0 ∧ s.c.id.twin = false ∧ s.pkg.rejoin = none
      (may → exec (.decpl g) s = .next (buffer .decpl (s.withPkg { s.pkg with rejoin := some ⟨gangMembers s.c, [], none,
          (s.pkg.others.filter (mateOf s)).map (·.ctxid)⟩ })))
      ∧ (¬ may → Traps (.decpl g) .fuse s))
    ∧ (s.c.id.dec = false → Traps (.rejoin g) .fuse s)
    ∧ (s.c.id.dec = true → ∃ line, exec (.rejoin g) s = .next (waitFor .rejoin (emit (s.withPkg { s.pkg with rejoin := line })))
      ∧ ∀ r, s.pkg.rejoin = some r → line = some ⟨r.members, Config.coreId :: r.bits, some s.grp.pc, r.mates⟩))
  ∧ (∀ (g : Fin 16) (a : Src) (s : State), guardOn g s = true → canRead a s = true →
    let p : BitVec 3 := (valueOf a s).extractLsb' 0 3
    exec (.prio g a) s = .next (sched (.prio (if s.c.id.sup = true ∨ p.toNat ≤ s.c.id.prio.toNat then p else s.c.id.prio)) 1
      (afterRead a s)))
  ∧ (∀ (g : Fin 16) (a b : Src) (s : State), guardOn g s = true → canRead2 a b s = true →
    let x := valueOf a s
    let y := valueB a b s
    let id : BitVec 12 := x.extractLsb' 0 12
    let half := (x.extractLsb' 16 16).toNat
    let own := s.c.id.strm = true ∧ s.c.id.stream = id ∧ s.c.id.strinfo = 0 ∧ look s.pkg.streams id.toNat = none
    let legal := 1 ≤ half ∧ half ≤ 128 ∧ (x.extractLsb' 12 4).toNat = 0
    (¬ legal → Traps (.sctPin g a b) .illegal s)
    ∧ (legal → y.toNat % 2 ^ 16 ≠ 0 → Traps (.sctPin g a b) .misalign s)
    ∧ (legal → y.toNat % 2 ^ 16 = 0 → ¬ own → Traps (.sctPin g a b) .stream s)
    ∧ (legal → y.toNat % 2 ^ 16 = 0 → own → streamRoom s.pkg Config.coreId (512 * half) = none → Traps (.sctPin g a b) .stream s)
    ∧ (legal → y.toNat % 2 ^ 16 = 0 → own → ∀ off, streamRoom s.pkg Config.coreId (512 * half) = some off →
      (spaceOf y ≠ 0 ∨ nodeOf y ≠ 0 → TrapsAt (.sctPin g a b) .unmapped y s)
      ∧ (spaceOf y = 0 → nodeOf y = 0 → ∀ pa v, Sys2Proof.Machine.paOf 0 .both y (after2 a b s) = .ok (pa, v) →
        let e : Stream := ⟨.reserved, Config.coreId, off, half, [pa], y, x.extractLsb' 32 32, v.pkg.devtime, v.c.id.ctxid, false⟩
        exec (.sctPin g a b) s = .next (buffer (.sctPin id)
          (v.withPkg (pinFrames [pa] { v.pkg with streams := put v.pkg.streams id.toNat e }))))))
  ∧ ∀ (g : Fin 16) (w : Bool) (a : Src) (s : State), guardOn g s = true → canRead a s = true →
    let id : BitVec 12 := (valueOf a s).extractLsb' 0 12
    let own := ∃ e, look s.pkg.streams id.toNat = some e ∧ e.state = .active ∧ e.owner = s.c.id.ctxid
    (own → exec (.sctRel g w a) s = .next (buffer (.sctRel id w) (afterRead a s))) ∧ (¬ own → Traps (.sctRel g w a) .stream s)

/-- R97, R402, R405, R409, R410, R419: sys.rd and sys.wr. A number that is not listed traps ILLEGAL, one the mode may not
touch PRIV. What sys.rd and time.rd sample is what stands there as their group issues. A context register is replaced in its written fields one group later; a loop counter is any mode's; a package
register is written as the slot issues, which emits the phase. time.rd reads DEVTIME, or its seconds and nanoseconds.
Choices of the model it rests on: log 12 (a TRADDR that no rule states is free); log 57 (PRIV and ILLEGAL of system
registers). -/
def Obligations.SystemRegisterResults : Prop :=
  (∀ (g : Fin 16) (d : Dst) (a : Src) (s : State), guardOn g s = true → canRead a s = true →
    let n : BitVec 12 := (valueOf a s).extractLsb' 0 12
    let u := atStart (afterRead a s)
    let v := (ctxReg n u).or (pkgReg n u)
    let allowed := u.c.id.sup = true ∨ n.toNat < 0x400 ∨ n.toNat ∈ [0x800, 0x801, 0x802]
    (n.toNat = 0xC00 → Traps (.sysRd g d a) .priv s)
    ∧ (n.toNat ≠ 0xC00 → v = none → Traps (.sysRd g d a) .illegal s)
    ∧ (n.toNat ≠ 0xC00 → ∀ x, v = some x →
      (¬ allowed → Traps (.sysRd g d a) .priv s)
      ∧ (allowed → canWrite d (afterRead a s) = true → exec (.sysRd g d a) s
        = .next (wrote d x (taintOf a s || predTaint s.c (guardReg g)) 2 (afterRead a s)))))
  ∧ (∀ (g : Fin 16) (a b : Src) (s : State), guardOn g s = true → canRead2 a b s = true →
    let n : BitVec 12 := (valueOf a s).extractLsb' 0 12
    let x := valueB a b s
    let u := after2 a b s
    (∀ c : Fin 4, n.toNat = 0x10 + c.val → exec (.sysWr g a b) s = .next (sched (.lc c (x.extractLsb' 0 32)) 1 u))
    ∧ (n.toNat = 0xC00 → Traps (.sysWr g a b) .priv s)
    ∧ (n.toNat / 4 ≠ 4 → (ctxReg n u).isSome = true →
      (s.c.id.sup = true → sysregMask n ≠ 0 → exec (.sysWr g a b) s = .next (sched (.sysreg n x) 1 u))
      ∧ (s.c.id.sup = false ∨ sysregMask n = 0 → Traps (.sysWr g a b) .priv s))
    ∧ (n.toNat ≠ 0xC00 → ctxReg n u = none → pkgReg n u = none → Traps (.sysWr g a b) .illegal s)
    ∧ (n.toNat ≠ 0xC00 → ctxReg n u = none → (pkgReg n u).isSome = true →
      (s.c.id.sup = false → Traps (.sysWr g a b) .priv s)
      ∧ (s.c.id.sup = true →
        (n.toNat = 0x802 → exec (.sysWr g a b) s = .next (emit (u.withPkg (setDevtime x u.pkg))))
        ∧ (n.toNat = 0x803 → exec (.sysWr g a b) s = .next (emit (u.withPkg { u.pkg with freezemax := x &&& 0xFFFFFFFF })))
        ∧ (n.toNat = 0x807 → exec (.sysWr g a b) s = .next (emit (u.withPkg { u.pkg with
            fab := { u.pkg.fab with fabcfg := x &&& 0xFFFFFFFFFFFF } })))
        ∧ (n.toNat = 0x860 → ∃ y, exec (.sysWr g a b) s = .next (emit (u.withPkg { u.pkg with abortring := y }))
          ∧ ∀ i, i < 64 → y.getLsbD i = if 12 ≤ i ∧ i < 52 then x.getLsbD i else s.pkg.abortring.getLsbD i)
        ∧ (n.toNat ∈ [0x800, 0x801, 0x820] → Traps (.sysWr g a b) .priv s))))
  ∧ ∀ (g : Fin 16) (d : Dst) (s : State), guardOn g s = true → canWrite d s = true →
    let t := predTaint s.c (guardReg g)
    exec (.timeRd g d false) s = .next (wrote d (atStart s).pkg.devtime t 1 s)
    ∧ exec (.timeRd g d true) s = .next (wrote d
      (BitVec.ofNat 32 ((atStart s).pkg.devtime.toNat / 1000000000)
        ++ BitVec.ofNat 32 ((atStart s).pkg.devtime.toNat % 1000000000)) t 1 s)

/-- R180, R182, R207, R209, R245, R394, R403: the events of phases, barriers and aborts. A late trap waits, as its next group
does, while a typed-buffer write due there is held back behind matrix work.
Choices of the model it rests on: log 37 (late traps and rollback); log 90 (the halves of a refetch); log 91 (tile entries
after a rollback). -/
def Obligations.PhaseEventResults : Prop :=
  ∀ (s : State),
    exec .commitComplete s = .next (inOther advanceCommit (advanceCommit s))
    ∧ (∀ (l : Late) (r : List Late), s.c.late = l :: r → s.c.live = true → s.c.a.inh = false → s.c.frozen = none →
      s.c.commit = none → heldWrite s.c = false → exec .lateTrapDelivery s = .next (
        let u := applyDue (s.withC { s.c with late := r })
        takeTrap l.cause l.addr 0 { u with grp := { u.grp with pc := u.c.a.pc } }))
    ∧ (s.c.late = [] ∨ heldWrite s.c = true → exec .lateTrapDelivery s = .next s)
    ∧ (let limit := s.c.a.phbudget.toNat % 2 ^ 32
      s.c.live = true → s.c.a.inh = false → s.c.frozen = none → s.c.commit = none →
      (limit = 0 → exec .phaseBudget s = .next s)
      ∧ (limit ≠ 0 → s.c.late.any (fun l => l.cause = .phaseBudget) = false → ∃ a, exec .phaseBudget s
        = .next (s.withC { s.c with clock := max limit s.c.clock, late := s.c.late ++ [⟨.phaseBudget, a, false⟩] }))
      ∧ (s.c.late.any (fun l => l.cause = .phaseBudget) = true → exec .phaseBudget s = .next s))
    ∧ (∀ gid : BitVec 8, ∃ t, exec (.groupAbortNotice gid) s = .next t ∧ t.pkg.aborted.contains gid = true
      ∧ (¬ (some gid ∈ s.core.member.toList) → t.c = s.c ∧ t.c2 = s.c2))
    ∧ (∀ gid b : BitVec 8, look s.pkg.groups gid.toNat = none →
      exec (.barrierArrival gid b) s
        = .next (if s.pkg.early.length < 1024 then s.withPkg { s.pkg with early := s.pkg.early ++ [(gid, b)] } else s))
    ∧ (∀ (gid b : BitVec 8) (e : GroupRec) (m : Nat), look s.pkg.groups gid.toNat = some e → memberSlot s.core gid = some m →
      let i := 256 * m + b.toNat
      let x := barAt s.core i
      let c := x.count + 1
      let y : BarEnt := if x.n.toNat ≤ c.toNat ∧ x.n ≠ 0 then ⟨x.n, c - x.n, x.gen + 1⟩ else ⟨x.n, c, x.gen⟩
      exec (.barrierArrival gid b) s = .next (s.withCore { s.core with bars := put s.core.bars i y }))
    ∧ (∀ (gid : BitVec 8) (r : GroupRec), ∃ t, exec (.groupTableFill gid r) s = .next t
      ∧ look t.pkg.groups gid.toNat = some r ∧ t.pkg.aborted.contains gid = false
      ∧ t.pkg.early.all (fun a => a.1 ≠ gid) = true)

/-- R285, R294, R297, R405, R410, R423, R435: the register writes of other cores, and the device clock. A write of DEVTIME
steps forward or slews, and a PPS edge corrects an error of 20 ns to 1 ms; ones clear HALTMASK, CORESTAT and DROP; VER waits for DRAIN; the logs are cleared
whole. A write of a launch-word address drops what the word had posted (the model's choice, log 75).
Choices of the model it rests on: log 58 (LWADDR, LWENV and PPS events); log 75 (launch words watched after each step). -/
def Obligations.RegisterEventResults : Prop :=
  ∀ (s : State),
    (∀ v : W64, ∃ p, exec (.devtimeWrite v) s = .next (s.withPkg p) ∧ p.ppsSkip = true ∧ p.gain = 0
      ∧ (if s.pkg.devtime.toNat < v.toNat then p.devtime = v ∧ p.slew = 0
        else p.devtime = s.pkg.devtime ∧ p.slew = s.pkg.devtime.toNat - v.toNat))
    ∧ (s.pkg.ppsSkip = true → exec .ppsEdge s = .next (s.withPkg { s.pkg with ppsSkip := false }))
    ∧ (s.pkg.ppsSkip = false →
      let t : Int := s.pkg.devtime.toNat
      ∃ e : Int, (∃ k : Int, t = e + 1000000000 * k) ∧ -500000000 ≤ e ∧ e < 500000000
        ∧ ((e ≤ 20 ∧ -20 ≤ e) ∨ 1000000 < e ∨ e < -1000000 → exec .ppsEdge s = .next s)
        ∧ (20 < e → e ≤ 1000000 → exec .ppsEdge s
          = .next (s.withPkg { s.pkg with slew := e.toNat, slewFrac := 0, gain := 0, gainFrac := 0 }))
        ∧ (-1000000 ≤ e → e < -20 → exec .ppsEdge s
          = .next (s.withPkg { s.pkg with gain := (-e).toNat, gainFrac := 0, slew := 0, slewFrac := 0 })))
    ∧ (∃ p, exec .devtimeSlewEnd s = .next (s.withPkg p) ∧ (s.pkg.slewFrac < 16 → s.pkg.gainFrac < 16 → p.slew = 0 ∧ p.gain = 0))
    ∧ exec .ecclogClear s = .next (s.withPkg { s.pkg with hbm := { s.pkg.hbm with ecclog := 0 } })
    ∧ exec .linklogClear s = .next (s.withPkg { s.pkg with hbm := { s.pkg.hbm with linklog := 0 } })
    ∧ (∀ (k : Fin 4) (v : W64), ∃ h, exec (.haltmaskClear k v) s = .next (s.withPkg { s.pkg with haltmask := h })
      ∧ ∀ j : Fin 4, h[j] = if j = k then s.pkg.haltmask[j] &&& ~~~v else s.pkg.haltmask[j])
    ∧ (∀ core : BitVec 8, ∃ p, exec (.culletClear core) s = .next (s.withPkg p) ∧ p.cullet = s.pkg.cullet.filter (fun c => c ≠ core))
    ∧ (∀ v : Bool, exec (.routecfgVerWrite v) s = .next (if v ≠ s.pkg.fab.ver ∧ drainCount s.pkg.fab ≠ 0 then s
      else s.withPkg { s.pkg with fab := { s.pkg.fab with ver := v } }))
    ∧ exec .routecfgDropClear s = .next (s.withPkg { s.pkg with fab := { s.pkg.fab with drop := 0 } })
    ∧ (∀ v : W64,
      let node := s.pkg.fab.rtidx.toNat % 2 ^ 12
      let f := s.pkg.fab
      let f' : Fabric := if f.ver then { f with table0 := put f.table0 node (v &&& 0x1FF) }
        else { f with table1 := put f.table1 node (v &&& 0x1FF) }
      exec (.rtdatWrite v) s = .next (s.withPkg { s.pkg with fab := f' }))
    ∧ (∀ v : W64, exec (.sctcfgWrite v) s
      = .next (if s.pkg.streams.isEmpty then s.withPkg { s.pkg with sctcfg := v &&& 0x1F0000 } else s))
    ∧ ∀ (n : Fin 16) (v : W64), ∃ t, exec (.lwaddrWrite n v) s = .next t
      ∧ (t.disp ownDie).lwaddr[n] = v &&& 0xFFFFFFFFFFFFFFF9 ∧ (t.disp ownDie).work[n] = none

/-! ## Copy engines (08), residencies (10), the matrix array (09) -/

/-- R211, R212, R222 to R225, R227 to R229: the settings of a copy engine are written one group later, each field group
alone; cp.stat reads the command counts and the first fault as its group finds
them (R8), and clears it; cp.cancel drops the commands of the classes
named; cp.tdef stores a tensor image into the tensor table.
Choices of the model it rests on: log 12 (a TRADDR that no rule states is free). -/
def Obligations.CopySettingResults : Prop :=
  ∀ (g : Fin 16) (e : Fin 2) (a b : Src) (d : Reg) (s : State), guardOn g s = true →
    let lo (x : W64) : W32 := x.extractLsb' 0 32
    let hi (x : W64) : W32 := x.extractLsb' 32 32
    let set (w : ShadowW) (u : State) : Host.Outcome State Fault Refusal := .next (sched (.shadow e w) 1 u)
    (canRead2 a b s = true →
      let x := valueOf a s
      let y := valueB a b s
      exec (.cpSrc g e false a b) s = set (.src (x.extractLsb' 0 10) (lo y) (hi y)) (after2 a b s)
      ∧ exec (.cpDst g e false a b) s = set (.dst (x.extractLsb' 0 10) (lo y) (hi y)) (after2 a b s))
    ∧ (canRead b s = true →
      let y := valueOf b s
      let u := afterRead b s
      exec (.cpSrc g e true a b) s = set (.srcHi (lo y) (hi y)) u ∧ exec (.cpDst g e true a b) s = set (.dstHi (lo y) (hi y)) u
      ∧ exec (.cpShp g e false b) s = set (.shp (lo y) (hi y)) u ∧ exec (.cpShp g e true b) s = set (.shpHi (lo y) (hi y)) u
      ∧ exec (.cpFmt g e b) s = set (.conv (y.extractLsb' 0 16)) u
      ∧ ((y.extractLsb' 0 3).toNat ≤ 4 → exec (.cpFmtCtl g e b) s = set (.ctl (y.extractLsb' 0 6)) u)
      ∧ (4 < (y.extractLsb' 0 3).toNat → Traps (.cpFmtCtl g e b) .format s)
      ∧ (∀ on, exec (.cpFill g e on b) s = set (.fill y on) u)
      ∧ ∃ t, exec (.cpCancel g e b) s = .next t
        ∧ t.core.xq = s.core.xq.filter (fun x => !(x.own.ctxid = s.c.id.ctxid && x.e = e && y.getLsbD (ctlPri x.sh) && !x.refetch))
        ∧ t.c.inputs = s.c.inputs.filter (fun x => !(x.e = e && y.getLsbD (ctlPri x.sh)
            && s.core.xq.any (fun z => z.own.ctxid = s.c.id.ctxid && z.no = x.no && !z.refetch)))
        ∧ t.c.a = s.c.a ∧ t.pkg.mem = s.pkg.mem ∧ t.core.as = s.core.as ∧ t.core.cb = s.core.cb)
    ∧ (∀ (t : BitVec 10) (c0 c1 : W32),
      let h := s.c.a.shadow[e]
      (applyEff (.shadow e (.src t c0 c1)) s).c.a.shadow[e] = { h with stid := t, sc := #v[c0, c1, 0, 0] }
      ∧ (applyEff (.shadow e (.shp c0 c1)) s).c.a.shadow[e] = { h with bx := #v[c0, c1, 1, 1] })
    ∧ (awaits (atStart s).c (.reg d) = false → ∀ clr : Bool,
      let u := sched (.s d (cpStatus e (atStart s)) (predTaint s.c (guardReg g))) 2 s
      exec (.cpStat g e clr d) s = .next (if clr then u.withC { u.c with cpErr := u.c.cpErr.set e 0 } else u))
    ∧ (canRead2 a b s = true →
      let tid := (valueOf a s).toNat % 1024
      let y := (valueB a b s).toNat
      let u := after2 a b s
      (y % 64 ≠ 0 → Traps (.cpTdef g a b) .misalign s)
      ∧ (y % 64 = 0 → regionAt s.c.regions false y 64 = none → Traps (.cpTdef g a b) .bounds s)
      ∧ (y % 64 = 0 → ∀ r old v pa w, regionAt s.c.regions false y 64 = some r → tensorEntry tid u = .ok (old, v) →
        let img := getBytes s.core.as (r.phys false y) 64
        let n := tensorOf img
        let ea := s.c.a.tensbase + BitVec.ofNat 64 (64 * tid)
        Sys2Proof.Machine.soundBuf false (span (r.phys false y) 64) u = .ok () →
        (n.desc.testBit 0 = false ∨ n.ok = true) → n.space ∉ [1, 2] → old.space ∉ [1, 2] → addressOk false ea v = true →
          Sys2Proof.Machine.paOf (spaceOf ea) .write ea v = .ok (pa, w) →
          (sectors (w.c.buf ++ [.store (cellsAt pa img)])).length ≤ 512 →
          exec (.cpTdef g a b) s = .next (sched (.tdef tid img) 1 (buffer (.store (cellsAt pa img)) w))))

/-- R213 to R219, R226, R238: the checks of cp.go in their order, each with its cause: malformed tensors, their bases, a
destination that may be written, the element sizes, the conversion, the two boxes in their tensors and in their regions, open
tiles, a declared input's destination, the completion word's place, and the limits of 16. The place of TILE_OPEN in the order
is the model's choice (log 92). -/
def copyGoChecks (h : Shadow) (e : Fin 2) (inp cw : Bool) (x : W64) (dst src : Tensor) (s : State) : List (Bool × Cause) :=
  let fits (t : Tensor) (c : Vector W32 4) : Bool :=
    [0, 1, 2, 3].all (fun d => (natsOf c).getD d 0 + (natsOf h.bx).getD d 0 ≤ t.ext.getD d 0)
  let wordOff := x.toNat
  [ (dst.ok && (h.fm || src.ok), .tensor)
  , (!badBase dst && (h.fm || !badBase src), .address)
  , (dst.writable, .tensor)
  , (h.fm || convEn h || dst.esz = src.esz, .tensor)
  , (h.fm || !convEn h || (convOk src (convSf h) && convOk dst (convDf h) && convRm h ≤ 3 && (h.conv.extractLsb' 13 3).toNat = 0),
      .format)
  , (emptyBox h || ((h.fm || fits src h.sc) && fits dst h.dc), .bounds)
  , (emptyBox h || ((h.fm || boxInRegion src h.sc h s) && boxInRegion dst h.dc h s), .bounds)
  , ((h.fm || !boxOnTile src h.sc h s) && !boxOnTile dst h.dc h s, .tileOpen)
  , (!inp || phasedBuf dst, .tensor)
  , (!cw || wordOff % 4 = 0, .misalign)
  , (!cw || (regionAt s.c.regions (ctlCws h) wordOff 4).isSome, .bounds)
  , (!(cw && ctlCws h && s.c.a.opens.any (fun o => wordOff < o.1 + o.2 && o.1 < wordOff + 4)), .tileOpen)
  , (!(dst.space = 0 && 16 ≤ (deferredOn s.c e).length), .bufferFull)
  , (!(inp && 16 ≤ (s.c.inputs.filter (fun i => i.e = e)).length), .bufferFull) ]

/-- R213 to R219, R226: cp.go traps with the cause of the first check that fails; with every check passed it hands a copy
command on: to the engine's queue, or, where its destination lies in global space, to the phase's buffered set.
Choices of the model it rests on: log 12 (a TRADDR that no rule states is free); log 44 (engines work a command in one
step); log 92 (the place of TILE_OPEN). -/
def Obligations.CopyGoResults : Prop :=
  ∀ (g : Fin 16) (e : Fin 2) (acq rel inp cw : Bool) (a b : Src) (s : State), guardOn g s = true →
    (cw = true → canRead2 a b s = true) →
    let h := s.c.a.shadow[e]
    let u := if cw then after2 a b s else s
    let x := if cw then valueOf a s else 0
    let y := if cw then valueB a b s else 0
    let t := cw && taint2 a b s
    ∀ dst src v w, tensorEntry h.dtid.toNat u = .ok (dst, v) →
      (if h.fm then src = dst ∧ w = v else tensorEntry h.stid.toNat v = .ok (src, w)) →
      let failed := (copyGoChecks h e inp cw x dst src w).find? (fun k => !k.1)
      (∀ k, failed = some k → Traps (.cpGo g e acq rel inp cw a b) k.2 s)
      ∧ (failed = none → engineReady (t || predTaint w.c (guardReg g)) w = .ok () →
        (dst.space ≠ 0 → (handedOn w.pkg w.core w.c.id.ctxid e).length + othersOn w.pkg w.c.id.ctxid e < 16) →
        ∃ cmd n, exec (.cpGo g e acq rel inp cw a b) s
            = .next (if dst.space = 0 then buffer (.copy cmd) n else n.withCore { n.core with xq := n.core.xq ++ [cmd] })
          ∧ n = w.withC { w.c with engCount := w.c.engCount + 1, inputs := if inp then w.c.inputs ++ [cmd] else w.c.inputs }
          ∧ cmd.no = w.c.engCount ∧ cmd.e = e ∧ cmd.acq = acq ∧ cmd.rel = rel ∧ cmd.inp = inp ∧ cmd.sh = h ∧ cmd.src = src
          ∧ cmd.dst = dst ∧ cmd.own = ownerOf w ∧ cmd.refetch = false
          ∧ cmd.cw = if cw then some (ctlCws h, x.toNat, y.extractLsb' 0 32) else none)

/-- R213 to R221: an engine performs the ready command whose turn it is: its bytes land, later ones over earlier ones, the
command leaves the queue, the count of completed commands rises and the completion word is written; a fault stops it and the
class behind it, records ERR, and its owner traps late. A command that the MMP finds no mapping for stops with UNMAPPED. An
engine with none changes nothing, and one whose words of HBM are still to be delivered only transfers them (R432, log 106).
Choices of the model it rests on: log 37 (late traps and rollback); log 44 (engines work a command in one step); log 81
(stops of engine commands); log 88 (the address of a tile PTE fault); log 93 (words of an owner that is away); log 94 (a
refetch that fails); log 106 (L2 sectors, HBM writes and the order of words); log 107 (poisoned bytes of typed buffers). -/
def Obligations.CopyEventResults : Prop :=
  ∀ (e : Fin 2) (s : State),
    (nextXfer s e = none → exec (.copyCommandComplete e) s = .next s
      ∧ ∀ why, (why = .unmapped → frozenXfers s e = []) → exec (.copyCommandFault e why) s = .next s)
    ∧ (∀ x f rest l t st, frozenXfers s e = (x, f) :: rest → runXfer x s = (l, t, st) →
      (ontoSource x s l = false → exec (.copyCommandFault e .unmapped) s = .next (stopXfer x .unmapped f.va l t))
      ∧ (ontoSource x s l = true → exec (.copyCommandFault e .unmapped) s = .next s))
    ∧ (∀ x, nextXfer s e = some x → (fetchXfer x s).2 = false → exec (.copyCommandComplete e) s = .next (fetchXfer x s).1)
    ∧ ∀ x l t, nextXfer s e = some x → s.pkg.hbm.quiet = true → s.pkg.hbm.fetched = [] →
      (runXfer x s = (l, t, none) →
        let u := finishXfer x l t
        exec (.copyCommandComplete e) s = .next u ∧ u.core.xq = t.core.xq.erase x ∧ u.c.a = s.c.a
          ∧ (Memory.wf t.pkg.mem = true → ∀ a, getByte u.pkg.mem a =
              match (pieceBytes t.tick l).reverse.find? (fun w => w.1 = .mem a) with
              | some w => w.2
              | none => getByte t.pkg.mem a))
      ∧ (∀ a, runXfer x s = (l, t, some (.trap .access (some a))) →
        let u := stopXfer x .access a l t
        exec (.copyCommandFault e .access) s = .next u ∧ exec (.copyCommandComplete e) s = .next u
          ∧ (s.c.live = true → s.c.id.ctxid = x.own.ctxid →
            u.c.cpErr[x.e] = 2 ∧ ∃ f, u.c.late = s.c.late ++ [⟨.access, a, f⟩]))
      ∧ (∀ a, runXfer x s = (l, t, some (.trap .poolRegion (some a))) →
        exec (.copyCommandFault e .poolRegion) s = .next (stopXfer x .poolRegion a l t)
        ∧ exec (.copyCommandComplete e) s = .next (stopXfer x .poolRegion a l t))
      ∧ (∀ st, runXfer x s = (l, t, st) → l ≠ [] → (∀ p ∈ l, p.src ≠ []) → ∃ k p, l[k]? = some p
        ∧ exec (.copyCommandFault e .poison) s = .next (stopXfer x .copyPoison p.va (l.take k) t))

/-- R263, R266 to R279: the residency instructions. A handle that names no live entry of the tenant traps RESIDENCY_ABSENT;
res.alloc takes the lowest free entry within quota and canopy; res.load, res.reload and res.pin start loads; res.unpin,
res.revoke and res.q act on the entry named.
Choices of the model it rests on: log 12 (a TRADDR that no rule states is free); log 111 (QUOTA before RESIDENCY_ABSENT). -/
def Obligations.ResidencyResults : Prop :=
  ∀ (g : Fin 16) (d : Reg) (a b : Src) (s : State), guardOn g s = true →
    (canRead b s = true →
      let y := valueOf b s
      let u := afterRead b s
      let ten := tenantOf s.c
      let desc : W32 := y.extractLsb' 0 32
      let ok := (y.extractLsb' 6 2).toNat = 0 ∧ (resFormat (descCode desc) (descBs desc)).isSome = true
      let t := taintOf b s || predTaint s.c (guardReg g)
      (¬ ok → Traps (.resAlloc g d b) .format s)
      ∧ (ok → limitOf s.c < quotaUsed s.core ten + granules desc → Traps (.resAlloc g d b) .quota s)
      ∧ (ok → quotaUsed u.core ten + granules desc ≤ limitOf s.c →
        (freeEntry u.core = none → Traps (.resAlloc g d b) .quota s)
        ∧ ∀ i, freeEntry u.core = some i →
          (makeSpace 256 (granules desc) u = none → Traps (.resAlloc g d b) .canopyFull s)
          ∧ ∀ v, makeSpace 256 (granules desc) u = some v → awaits (atStart v).c (.reg d) = false →
            let gen := (resEnt v.core i).gen
            let x := { ResEnt.freed gen with state := .absent, tenant := ten, desc := desc, space := true, used := v.tick }
            exec (.resAlloc g d b) s = .next (sched
              (.s d (BitVec.ofNat 64 (ten.toNat * 2 ^ 24 + i * 2 ^ 16 + gen.toNat)) (taintOf b s || predTaint v.c (guardReg g))) 1
              (setRes i x v)))
      ∧ (awaits (atStart s).c (.reg d) = false → exec (.resQ g d b) s = .next (sched (.s d (resStatus y (atStart u)) t) 1 u)))
    ∧ (canRead2 a b s = true →
      let y := valueB a b s
      let u := after2 a b s
      (nodeOf y ≠ 0 ∨ spaceOf y ∉ [0, 2] → Traps (.resLoad g a b) .address s)
      ∧ (nodeOf y = 0 → spaceOf y ∈ [0, 2] → y.toNat % 256 ≠ 0 → Traps (.resLoad g a b) .misalign s)
      ∧ (nodeOf y = 0 → spaceOf y ∈ [0, 2] → y.toNat % 256 = 0 →
        (handleOf false (valueOf a s) u = .error (.trap .residencyAbsent none) → Traps (.resLoad g a b) .residencyAbsent s)
        ∧ ∀ i, handleOf false (valueOf a s) u = .ok i → (resEnt u.core i).state ∈ [.absent, .ready, .stale] →
          ∀ v, spaceFor i u = some v → engineReady (taint2 a b s || predTaint s.c (guardReg g)) v = .ok () →
            (resEnt u.core i).usecnt = 0 → exec (.resLoad g a b) s = .next (startLoad i y (ownerOf v) false none v)))
    ∧ (canRead a s = true →
      let h := valueOf a s
      let u := afterRead a s
      (handleOf false h u = .error (.trap .residencyAbsent none) →
        Traps (.resReload g a) .residencyAbsent s ∧ Traps (.resPin g a) .residencyAbsent s
          ∧ ∀ all, Traps (.resUnpin g all a) .residencyAbsent s)
      ∧ (handleOf s.c.id.sup h u = .error (.trap .residencyAbsent none) → Traps (.resRevoke g a) .residencyAbsent s)
      ∧ (∀ i, handleOf s.c.id.sup h u = .ok i → 
        let v := unpinLoad i u
        let x := { resEnt v.core i with state := .revoked, watched := false, watch := [], pins := 0 }
        exec (.resRevoke g a) s = .next (setRes i (settleRes x) v))
      ∧ ∀ i, handleOf false h u = .ok i →
        let e := resEnt u.core i
        exec (.resUnpin g false a) s = .next (setRes i { e with pins := e.pins - 1 } u)
        ∧ exec (.resUnpin g true a) s = .next (setRes i { e with pins := 0 } u)
        ∧ (e.src = none → Traps (.resReload g a) .residencyAbsent s)
        ∧ (∀ x v, e.src = some x → e.state ∈ [.absent, .ready, .stale] → spaceFor i u = some v →
          engineReady (taintOf a s || predTaint s.c (guardReg g)) v = .ok () → e.usecnt = 0 →
          exec (.resReload g a) s = .next (startLoad i x (ownerOf v) false none v))
        ∧ (e.pins = 65535 → Traps (.resPin g a) .quota s)
        ∧ (e.pins ≠ 65535 → e.state ≠ .absent → exec (.resPin g a) s = .next (setRes i { e with pins := e.pins + 1 } u))
        ∧ (e.pins ≠ 65535 → e.state = .absent → e.src = none → Traps (.resPin g a) .residencyAbsent s)
        ∧ (∀ x v, e.pins ≠ 65535 → e.state = .absent → descRl e.desc = true → e.src = some x → spaceFor i u = some v →
          engineReady false v = .ok () → e.usecnt = 0 →
          let w := startLoad i x (ownerOf v) false none v
          exec (.resPin g a) s = .next (setRes i { resEnt w.core i with pins := (resEnt w.core i).pins + 1 } w)))

/-- R264, R270, R278, R281, R282, R432: a residency load that completes, once the words of its source are delivered, makes its
entry ready with their bytes; one that
fails makes it absent and its owner traps late. An array error counts; a corrected one does nothing else, and a lost canopy
word makes its residency absent. With matrix work, in a phase that has not emitted, the phase is rolled back to its checkpoint
and run A of compare mode starts; run B must spend the array clk and leave the signature that run A recorded.
Choices of the model it rests on: log 34 (compare mode); log 35 (a watched write during a load); log 44 (engines work a
command in one step); log 95 (the bytes of a signature); log 106 (L2 sectors, HBM writes and the order of words). -/
def Obligations.ResidencyEventResults : Prop :=
  ∀ (s : State),
    (∀ i : Fin 256, (resEnt s.core i.val).state ≠ .loading → exec (.residencyLoadComplete i) s = .next s
      ∧ ∀ why, exec (.residencyLoadFail i why) s = .next s)
    ∧ (∀ (i : Fin 256) l t, (resEnt s.core i.val).state = .loading → sourceParts (resEnt s.core i.val) s = (l, t, none) →
      let v := fetchHbm (wordsOf l) t
      (hbmReady v.pkg.hbm (wordsOf l) = false → exec (.residencyLoadComplete i) s = .next v)
      ∧ (hbmReady v.pkg.hbm (wordsOf l) = true →
        (∀ p ∈ l, ∀ j, j < ceilDiv p.2 64 → poisoned v.pkg (p.1 + 64 * j) = false) → (resEnt s.core i.val).seen = false →
        ∃ u, exec (.residencyLoadComplete i) s = .next u ∧ (resEnt u.core i.val).state = .ready
          ∧ (resEnt u.core i.val).data = l.flatMap (fun p => getBytes v.pkg.mem p.1 p.2)))
    ∧ (∀ (i : Fin 256) why, (resEnt s.core i.val).state = .loading → (resEnt s.core i.val).transparent = false →
      ∃ u, exec (.residencyLoadFail i why) s = .next u ∧ (resEnt u.core i.val).state = .absent
        ∧ (s.c.live = true → s.c.id.ctxid = (resEnt s.core i.val).own.ctxid →
          ∃ a, u.c.late = s.c.late ++ [⟨xferCause why, a, false⟩]))
    ∧ exec (.arrayError .corrected) s = .next (s.withPkg (countError Config.coreId s.pkg))
    ∧ (mxBusy s.c = false → mxBusy s.c2 = false →
      exec (.arrayError .residue) s = .next (s.withPkg (countError Config.coreId s.pkg))
      ∧ ∀ i : Fin 256, exec (.arrayError (.canopy i)) s = .next (canopyLoss i.val (s.withPkg (countError Config.coreId s.pkg))))
    ∧ (mxBusy s.c = true → s.c.compare = none → s.c.emitted = false → s.c.reruns = 0 →
      ∃ u, exec (.arrayError .residue) s = .next u ∧ u.c.a = { s.c.ck with opens := [] } ∧ u.c.reruns = 1
        ∧ u.c.compare = some ⟨false, false, s.c.named, 0, [], 0, none⟩)
    ∧ ∀ c, s.c.compare = some c →
      (c.stopped = true → c.runB = false → ∀ r, ∃ u, exec (.compareModeRunEnd r) s = .next u ∧ u.c.a = { s.c.ck with opens := [] }
        ∧ u.c.reruns = 2 ∧ u.c.compare = some ⟨true, false, [], 0, [], 0, some (c.clk, c.sig)⟩)
      ∧ (c.stopped = true → c.runB = true → c.runA = some (c.clk, c.sig) →
        exec (.compareModeRunEnd .agree) s = .next (s.withC { s.c with compare := none }))
      ∧ (c.stopped = false → ∀ r, exec (.compareModeRunEnd r) s = .next s)

/-- R233 to R238, R244, R249 to R262: the matrix slots. A direct operation that passes its checks joins the sequencer's queue
with FMT, the A stream and its address as its group reads them, and the set of open tiles and the stream advance as it
issues; mret and mloop outside a routine trap ILLEGAL. A read of MXSTAT takes what the operations before it leave, and a later
mset does not reach it (R262).
Choices of the model it rests on: log 12 (a TRADDR that no rule states is free); log 38 (mset of MXSTAT waits); log 39
(mode F8); log 104 (the order of matrix checks). -/
def Obligations.MatrixIssueResults : Prop :=
  (∀ (s : State) (i : Instr) (taint : Bool) (k : MxKind) (c : Fin 8),
    let mr (n : Fin 8) : W64 := s.c.a.m[n]
    let tn (n : Fin 8) : Bool := s.c.a.mTaint.getLsbD n
    ((i = .mzero c ∧ k = .mzero (mr c) ∧ taint = tn c)
      ∨ (∃ b n z, i = .mmac b c n z ∧ k = .mmac (mr b) (mr c) (if n = 0 then 4096 else n.toNat) z ∧ taint = (tn b || tn c))
      ∨ (∃ o z, i = .mhada c o z ∧ k = .mhada (mr c) o.val z ∧ taint = tn c)
      ∨ (∃ b n z, i = .mdrain c b n z ∧ k = .mdrain (mr c) (mr b) n.val z ∧ taint = (tn c || (z && tn b)))) →
    engineReady taint s = .ok () →
    (∀ x, checkMx k s.c.a.fmt s.c.a.asd s = .error (.trap x none) → Traps i x s)
    ∧ (∀ used, checkMx k s.c.a.fmt s.c.a.asd s = .ok used → queued s.c < 16 →
      ∃ t, exec i s = .next t
        ∧ t.c.mxq = s.c.mxq ++ [⟨s.c.engCount, k, s.c.a.fmt, s.c.a.asd, s.grp.pc + BitVec.ofNat 64 (4 * s.grp.idx)⟩]
        ∧ t.c.a = { s.c.a with opens := opensAfter k s.c.a.fmt s.c.a.opens, asd := asdAfter k s.c.a.fmt s.c.a.asd }
        ∧ t.core.as = s.core.as ∧ t.core.cb = s.core.cb ∧ t.pkg = s.pkg
        ∧ ∀ j, (resEnt t.core j).usecnt = (resEnt s.core j).usecnt + used.count j))
  ∧ ∀ (s : State),
    let enq (k : MxKind) : State := s.withC { s.c with
      engCount := s.c.engCount + 1
      mxq := s.c.mxq ++ [⟨s.c.engCount, k, s.c.a.fmt, s.c.a.asd, s.grp.pc + BitVec.ofNat 64 (4 * s.grp.idx)⟩]
      rTouch := if mxBusy s.c then s.c.rTouch else [] }
    Traps .mret .illegal s ∧ (∀ c off, Traps (.mloop c off) .illegal s)
    ∧ exec .msync s = .next (s.withC { s.c with waits := s.c.waits ++ [.msync] })
    ∧ (∀ n : Fin 64, engineReady (s.c.a.mTaint ≠ 0) s = .ok () →
      (look s.core.routines n.val = none → Traps (.mcall n) .illegal s)
      ∧ ((look s.core.routines n.val).isSome = true → queued s.c < 16 → exec (.mcall n) s = .next (enq (.call n.val s.c.a.m))))
    ∧ (∀ (all : Bool) (c : Fin 8), engineReady (!all && s.c.a.mTaint.getLsbD c) s = .ok () →
      checkMend all s.c.a.m[c] s.c.a.fmt s = .ok () → queued s.c < 16 →
      exec (.mend all c) s = .next ((enq .nop).withA { s.c.a with
        opens := if all then [] else s.c.a.opens.filter (fun o => o.1 ≠ ((s.c.a.m[c]).extractLsb' 0 20).toNat) }))
    ∧ (∀ (a : Fin 8) (h : Bool), engineReady (s.c.a.mTaint.getLsbD a) s = .ok () → queued s.c < 16 →
      let x := s.c.a.m[a]
      exec (.mlda a h) s
        = .next ((enq .nop).withA { s.c.a with asd := ⟨(x.extractLsb' 0 22).toNat, (x.extractLsb' 22 10).toNat, h⟩ }))
    ∧ (∀ (n : Fin 8) (v : BitVec 28), s.grp.lit = some v → engineReady false s = .ok () → queued s.c < 16 →
      exec (.mkat n) s = .next (s.withC { s.c with
        engCount := s.c.engCount + 1
        kats := s.c.kats ++ [⟨s.c.engCount, n.val, v, s.grp.pc + BitVec.ofNat 64 (4 * s.grp.idx)⟩] }))
    ∧ (∀ (a b : Fin 8) (c : BitVec 15),
      exec (.madd a b false c) s = .next (sched (.m a (s.c.a.m[a] + c.signExtend 64) (s.c.a.mTaint.getLsbD a)) 1 s)
      ∧ exec (.madd a b true c) s = .next (sched (.m a (s.c.a.m[a] + s.c.a.m[b] + c.signExtend 64)
          (s.c.a.mTaint.getLsbD a || s.c.a.mTaint.getLsbD b)) 1 s))
    ∧ (∀ n : Fin 64, (s.c.id.sup = false → Traps (.mprogClr n) .priv s ∧ ∀ a b, Traps (.mprogSet a b n) .priv s)
      ∧ (s.c.id.sup = true → callsOpen s.c = false → callsOpen s.c2 = false →
        exec (.mprogClr n) s = .next (s.withCore { s.core with routines := del s.core.routines n.val })
        ∧ ∀ a b : Fin 8,
          let off := ((s.c.a.m[a]).extractLsb' 0 22).toNat
          let base := ((s.c.a.m[b]).extractLsb' 0 12).toNat
          let len := ((s.c.a.m[b]).extractLsb' 12 13).toNat
          let words := (List.range len).map (fun i =>
            BitVec.ofNat 32 (ofBytes (((regionBytes false false off (4 * len) s).drop (4 * i)).take 4)))
          (off % 4 ≠ 0 → Traps (.mprogSet a b n) .misalign s)
          ∧ (off % 4 = 0 → len < 5 ∨ 4096 < base + len → Traps (.mprogSet a b n) .bounds s)
          ∧ (off % 4 = 0 → 5 ≤ len → base + len ≤ 4096 → (regionAt s.c.regions false off (4 * len)).isSome = true →
            unitBusy (atStart s).c = false → (wellFormedImage words = false → Traps (.mprogSet a b n) .illegal s)
            ∧ (wellFormedImage words = true →
              exec (.mprogSet a b n) s = .next (s.withCore (installRoutine n.val base words s.core))))))
    ∧ (∀ (g : Fin 16) (n : Fin 8) (a : Src) (d : Dst), guardOn g s = true →
      let t := predTaint s.c (guardReg g)
      (canRead a s = true →
        exec (.mset g n a) s = .next (sched (.m n (valueOf a s) (taintOf a s || t)) 1 (afterRead a s))
        ∧ (matrixBefore s = false → ∃ x, exec (.msetMxstat g a) s = .next ((latchStats (afterRead a s)).withA { s.c.a with mxstat := x })
          ∧ ∀ i, i < 64 → x.getLsbD i = if i < 6 ∨ (28 ≤ i ∧ i < 32) then (valueOf a s).getLsbD i else s.c.a.mxstat.getLsbD i))
      ∧ (canWrite d s = true →
        exec (.mget g d n) s = .next (wrote d s.c.a.m[n] (s.c.a.mTaint.getLsbD n || t) 1 s)
        ∧ (matrixBefore s = false → exec (.mgetMxstat g d) s = .next (wrote d (mxstatValue (atStart s).c) t 1 s))
        ∧ (matrixBefore s = true → exec (.mgetMxstat g d) s
          = .next (
            let u := claimed d s
            issueOp (latchStat u.c (memOp (.stat s.grp.eng (atStart u).c.a.opens none) (.scalar d) t false u)) u))))

/-- R239, R240: an INT32 accumulator takes the exact sum of its products, chunk by chunk, modulo 2^32, with no flag. -/
def integerAccumulationWraps : Prop :=
  ∀ (x : Nat) (l : List (Int × Int)), x < 2 ^ 32 →
    accElem .int32 x (l.map (fun p => fmul (.num (Exact.ofInt p.1)) (.num (Exact.ofInt p.2))))
      = (wrapN 32 (sextN 32 x + (l.map (fun p => p.1 * p.2)).sum), 0)

/-- R237: an element of a tile is read byte by byte from the back half where a matrix operation of this phase has written the
byte, else from the front half. -/
def tileReads : Prop :=
  ∀ (m : Mode) (off : Nat) (s : State) (r : Region) (k : Nat), regionAt s.c.regions true off m.tile = some r → k < m.tm * m.tn →
    let n := widthOf m.c / 8
    (readTile m off s).getD k 0 = ofBytes ((List.range n).map (fun i =>
      getByte s.core.cb (r.phys (marked s.c (off + (n * k + i))) (off + (n * k + i)))))

/-- R235: element A[i][k] of a plain format stands in row k of the stream, at the place of i. -/
def streamElements : Prop :=
  ∀ (m : Mode) (asd : Asd) (n i k : Nat) (f : Fmt) (s : State) (r : Region), m.a = .plain f → i < m.tm → k < n →
    let w := widthOf f / 8
    regionAt s.c.regions false (asd.off + k * (32 * asd.pitch)) (m.tm * widthOf f / 8) = some r →
    w * 8 = widthOf f →
    ((streamCols m asd n s).getD i [])[k]? = some (plainVal f (getNum s.core.as (r.phys asd.h (asd.off + k * (32 * asd.pitch)) + w * i) w))

/-- A tile is written: element (i, j) is `e i j`, its flags join MXSTAT.FLAGS, and no other byte of CB or AS changes. -/
def tileWritten (m : Mode) (off : Nat) (e : Nat → Nat → Nat × Flags6) (s t : State) : Prop :=
  let n := widthOf m.c / 8
  ∀ r, regionAt s.c.regions true off m.tile = some r →
    let lo := r.phys true off
    (∀ i j, i < m.tm → j < m.tn → getNum t.core.cb (lo + n * (i * m.tn + j)) n = (e i j).1 % 2 ^ (8 * n))
    ∧ (∀ a, a < lo ∨ lo + m.tile ≤ a → getByte t.core.cb a = getByte s.core.cb a)
    ∧ t.core.as = s.core.as
    ∧ t.c.a.mxstat = s.c.a.mxstat
      ||| ((List.range (m.tm * m.tn)).foldl (fun f k => f ||| (e (k / m.tn) (k % m.tn)).2) 0).zeroExtend 64

/-- R234, R237, R239 to R243, R254 to R257: what mzero, mmac, mhada and mdrain write as they are performed. mzero clears the
tile; mmac adds the products of the A stream with the panel of B to each element, and mhada those with the entries of the
Hadamard matrix (outside its diagonal blocks zeros, log 16), both chunk by chunk, or start from zero under Z; mdrain writes
each element, normalised, scaled and rounded once to MD, column by column, and leaves the tile. -/
def matrixBytes : Prop :=
  ∀ (s : State) (o : MxOp) (rest : List MxOp) (m : Mode), s.c.routine = none → s.c.mxq = o :: rest →
    Memory.wf s.core.cb = true → Memory.wf s.core.as = true →
    mxPoison o.kind o.fmt o.asd (s.withC { s.c with mxq := rest }) = none →
    let old (z : Bool) (off i j : Nat) : Nat := if z then 0 else (readTile m off s).getD (i * m.tn + j) 0
    ∃ t, exec .matrixOpPerform s = .next t
      ∧ (∀ c, o.kind = .mzero c → modeOf o.fmt = some m → tileWritten m (cOff c) (fun _ _ => (0, 0)) s t)
      ∧ (∀ b c n z, o.kind = .mmac b c n z → modeOf o.fmt = some m →
        tileWritten m (cOff c) (fun i j => accElem m.c (old z (cOff c) i j) (List.zipWith fmul
          ((streamCols m o.asd n s).getD i [])
          ((panelCols m (resEnt s.core (handleIndex b)) (bPanel b) (bRow b) n).getD j []))) s t)
      ∧ (∀ c ord z, o.kind = .mhada c ord z → hadaMode o.fmt = some m →
        tileWritten m (cOff c) (fun i j => accElem m.c (old z (cOff c) i j)
          (((streamCols m o.asd m.tn s).getD i []).mapIdx (fun k v => hadaTerm (16 * 2 ^ ord) k j v))) s t)
      ∧ ∀ d sc norm scl f, o.kind = .mdrain d sc norm scl → modeOf o.fmt = some m → fmtOf (mdOf o.fmt) = some f →
        let w := widthOf f / 8
        m.tm * w ≤ dPitch d → ∀ r, (∀ j, j < m.tn → regionAt s.c.regions false (dOff d + j * dPitch d) (m.tm * w) = some r) →
        let lo (j : Nat) : Nat := r.phys true (dOff d + j * dPitch d)
        let scale (j : Nat) : Option Val :=
          if scl then some (channelScale m (resEnt s.core (handleIndex sc)) (bPanel sc) j) else none
        (∀ i j, i < m.tm → j < m.tn → getNum t.core.as (lo j + w * i) w
          = (drainElem m.c f o.fmt norm (scale j) (old false (cOff d) i j)).1 % 2 ^ (8 * w))
        ∧ (∀ a, (∀ j, j < m.tn → a < lo j ∨ lo j + m.tm * w ≤ a) → getByte t.core.as a = getByte s.core.as a)
        ∧ t.core.cb = s.core.cb

/-- R247: an operation of a routine whose check fails stops the routine: what follows it is cancelled, MXSTAT.ERR takes the code
of the cause and MXSTAT.ESLOT the slot, and the trap is delivered at the context's next group. -/
def lateMatrixFaults : Prop :=
  ∀ (s : State) (r : Routine) (k : MxKind) (c : Cause) (a : Option W64) (code : BitVec 4), s.c.routine = some r → r.pc < r.len →
    rslotOf r (r.word s.core r.pc) = .op k → checkMx k r.fmt r.asd s = .error (.trap c a) →
    (c, code) ∈ ([(.illegal, 1), (.format, 2), (.bounds, 3), (.misalign, 4), (.residencyAbsent, 5), (.staleResidency, 6),
      (.tileOpen, 7), (.bufferFull, 8), (.katFail, 9)] : List (Cause × BitVec 4)) →
    ∃ t, exec .matrixOpPerform s = .next t
      ∧ t.c.a.mxstat.extractLsb' 28 4 = code ∧ t.c.a.mxstat.extractLsb' 16 12 = BitVec.ofNat 12 r.pc
      ∧ t.c.a.mxstat.extractLsb' 0 16 = s.c.a.mxstat.extractLsb' 0 16
      ∧ t.c.routine = none ∧ t.c.mxq = s.c.mxq.filter (fun o => o.no ≤ r.no)
      ∧ t.c.late = s.c.late ++ [⟨c, r.addr, true⟩]
      ∧ t.core.as = s.core.as ∧ t.core.cb = s.core.cb

/-- R234 to R258: what the matrix operations write (`matrixBytes`), how their late faults are reported (`lateMatrixFaults`),
and the order: the sequencer performs the oldest operation of the context, or the next slot of its
routine; poison among the bytes that an operation reads is consumed in its place (R184, log 107); a call starts its routine at the slot after the guard. In a routine mret ends it with its group and mloop counts
down and goes back. A known-answer tile runs once the operations issued before it are done; one whose signature is right
changes nothing but the queue and compare mode's count. An INT32 accumulator takes the
exact sum of its products modulo 2^32 (R239, R240).
Choices of the model it rests on: log 16 (mhada outside the diagonal blocks); log 33 (tiles written in this phase); log 66
(microprogram words never installed); log 107 (poisoned bytes of typed buffers). -/
def Obligations.MatrixPerformResults : Prop :=
  integerAccumulationWraps ∧ tileReads ∧ streamElements ∧ matrixBytes ∧ lateMatrixFaults ∧
  ∀ (s : State),
    (∀ o rest, s.c.routine = none → s.c.mxq = o :: rest →
      let u := s.withC { s.c with mxq := rest }
      ((∀ n m, o.kind ≠ .call n m) → mxPoison o.kind o.fmt o.asd u = none →
        exec .matrixOpPerform s = .next (latchStats
          ((mxUses o).foldl unuse (spendClk (arrayClk o.kind o.fmt) (performMx o.kind o.fmt o.asd u)))))
      ∧ (∀ off, (∀ n m, o.kind ≠ .call n m) → mxPoison o.kind o.fmt o.asd u = some off →
        exec .matrixOpPerform s = .next (latchStats (consumeLate (BitVec.ofNat 64 off) ((mxUses o).foldl unuse u))))
      ∧ ∀ n m, o.kind = .call n m →
        (∀ base len, look s.core.routines n = some (base, len) → exec .matrixOpPerform s = .next (latchStats (u.withC { u.c with
          routine := some ⟨o.no, o.fmt, o.addr, base, len, 1, 1, none, false, m, o.asd⟩ })))
        ∧ (look s.core.routines n = none → exec .matrixOpPerform s
          = .next (latchStats (mxFault o.no .illegal 0 o.addr u))))
    ∧ (∀ r, s.c.routine = some r → r.pc < r.len →
      let w := r.word s.core r.pc
      (∀ st, w = withStop (slotWord unitM 1 0) ∧ st = true ∨ w = slotWord unitM 1 0 ∧ st = false →
        exec .matrixOpPerform s = .next (latchStats (if st then s.withC { s.c with routine := none }
          else if r.pc + 1 < r.len then s.withC { s.c with routine := some { r with ret := true, pc := r.pc + 1 } }
          else s.withC { s.c with routine := none })))
      ∧ (∀ n off, decodeSlot w = .ok (.instr (.mloop n off)) →
        let c := r.m[n]
        exec .matrixOpPerform s = .next (latchStats (if 1 < c.toNat then
            afterSlot { r with m := r.m.set n (c - 1), jump := some (loopTarget r.start off, r.pc) } w s
          else afterSlot { r with m := r.m.set n 0 } w s))))
    ∧ (s.c.routine = none → s.c.mxq = [] →
      exec .matrixOpPerform s = .next (inOther (fun s => (matrixStep s).1) (latchStats s)))
    ∧ (∀ k rest, s.c.kats = k :: rest → matrixUnder s.c k.no = false → katSignature k.n = k.sig →
      exec .mkatRun s = .next (spendClk 128 (s.withC { s.c with kats := rest })))
    ∧ (∀ k rest, s.c.kats = k :: rest → matrixUnder s.c k.no = false → katSignature k.n ≠ k.sig → ∃ t, exec .mkatRun s = .next t
      ∧ (healthOf t.pkg Config.coreId).katf = true ∧ t.c.late = s.c.late ++ [⟨.katFail, k.addr, true⟩])

/-! ## The torus fabric (11) -/

/-- R287, R291 to R293, R309: the router discards and counts a packet that no route takes or whose hops are spent, keeps one
for its own node, which the loopback brings to it where it is its own, and queues any other for its ordered output; a put or the data of a get goes to the permitted link that is
ON with the fewest queued flits, or waits, and after its wait goes the ordered way.
Choices of the model it rests on: log 17 (the layout of AUX); log 96 (AUX of messages). -/
def Obligations.RoutingResults : Prop :=
  ∀ (q : Packet) (s : State),
    let p := s.pkg
    let e := (routeEntry p q.ver q.dst).toNat
    let lost := e % 8 = 7 ∨ (q.dst ≠ p.nodeid ∧ (e % 8 = 6 ∨ 64 ≤ q.hops))
    let vc (l : LinkNo) := channelOn p.fab.bootExt p.nodeid q.src l
    let flits (l : LinkNo) := queuedFlits p.fab l q.cls (vc l)
    let sent (l : LinkNo) : Packet := { q with
      vc := vc l, hops := q.hops + 1, mark := q.mark || (q.cls ≠ 2 && 32 < flits l) }
    let holding (h : Packet × Option LinkNo) (f : Fabric) : State := s.withPkg { p with fab := { f with held := f.held ++ [h] } }
    let permitted (l : LinkNo) := (e / 8 % 64).testBit l.val = true ∧ isOn p.fab l q.cls (vc l) = true
    let dropped (f : Fabric) : State := s.withPkg { p with fab := { f with drop := if f.drop = 0xFFFF then 0xFFFF else f.drop + 1 } }
    (lost → exec (.packetRoute q) s = .next (dropped p.fab))
    ∧ (¬ lost → e % 8 = 6 → exec (.packetRoute q) s
      = .next (if q.src = p.nodeid then s.withPkg { p with fab := { p.fab with loop := p.fab.loop ++ [q] } } else s))
    ∧ (¬ lost → multipath q = false → ∀ l : LinkNo, l.val = e % 8 →
      exec (.packetRoute q) s = .next (holding (sent l, some l) p.fab))
    ∧ (¬ lost → e % 8 ≠ 6 → multipath q = true →
      ((∀ l, ¬ permitted l) → exec (.packetRoute q) s = .next (holding (q, none) p.fab))
      ∧ ∀ k, permitted k → ∃ l, permitted l ∧ (∀ j, permitted j → flits l < flits j ∨ (flits l = flits j ∧ l.val ≤ j.val))
        ∧ exec (.packetRoute q) s = .next (holding (sent l, some l) p.fab))
    ∧ (p.fab.held.contains (q, none) = false → exec (.multipathFallback q) s = .next s)
    ∧ (p.fab.held.contains (q, none) = true → ∀ l : LinkNo, l.val = e % 8 →
      exec (.multipathFallback q) s = .next (holding (sent l, some l) { p.fab with held := p.fab.held.erase (q, none) }))
    ∧ (p.fab.held.contains (q, none) = true → 6 ≤ e % 8 →
      exec (.multipathFallback q) s = .next (dropped { p.fab with held := p.fab.held.erase (q, none) }))

/-- R286, R289, R296, R299, R300: a failed flit is counted and replayed, and after 8 failed replays of it the link retrains; training
ends in UP with 32 lanes, DEGRADED with 16, or FAILED, which empties the link's queues and traps the lease holder with
LINK_LOST; the neighbour's signals set the flow state; FIFO words that arrive join the receive queue.
Choices of the model it rests on: log 45 (FIFO words without a lease); log 96 (AUX of messages). -/
def Obligations.LinkEventResults : Prop :=
  ∀ (l : LinkNo) (s : State),
    let k := s.pkg.links[l]
    (linkCarries s.pkg l = false → (∀ r, exec (.flitCrcFail ⟨l, r⟩) s = .next s) ∧ (∀ w, exec (.fifowArrival l w) s = .next s)
      ∧ (∀ b, exec (.flow l b) s = .next s) ∧ ∀ c v b, exec (.idleFlitReceipt l c v b) s = .next s)
    ∧ (linkCarries s.pkg l = true →
      (∀ r : Bool, let n := if r then k.streak else 0
        (n < 8 → exec (.flitCrcFail ⟨l, r⟩) s
          = .next (setLink l { k with crcerr := satInc32 k.crcerr, replay := satInc16 k.replay, streak := n + 1 } s))
        ∧ (8 ≤ n → exec (.flitCrcFail ⟨l, r⟩) s
          = .next (setLink l { k with crcerr := satInc32 k.crcerr, streak := 0, state := .retrain, lanes := 0 } s)))
      ∧ (∀ c v b, ∃ t, exec (.idleFlitReceipt l c v b) s = .next t ∧ isOn t.pkg.fab l c.val v = b ∧ t.c = s.c
        ∧ t.pkg.mem = s.pkg.mem
        ∧ ∀ l' c' v', (l', c', v') ≠ (l, c, v) → isOn t.pkg.fab l' c'.val v' = isOn s.pkg.fab l' c'.val v')
      ∧ (∀ b, ∃ t, exec (.flow l b) s = .next t ∧ t.core.peerOff[l] = !b ∧ t.c = s.c ∧ t.core.recv = s.core.recv)
      ∧ ∀ w, (s.core.recv[l]).words.length + w.length ≤ 256 → ∃ t, exec (.fifowArrival l w) s = .next t ∧ t.c = s.c
        ∧ t.pkg.mem = s.pkg.mem
        ∧ t.core.recv = s.core.recv.set l { s.core.recv[l] with words := (s.core.recv[l]).words ++ w })
    ∧ (linkTrains s l = false → exec (.linkTrainingTimeout l) s = .next s ∧ ∀ n, exec (.linkTrainingResult l n) s = .next s)
    ∧ (linkTrains s l = true →
      (∀ n, 32 ≤ n → exec (.linkTrainingResult l n) s = .next (setLink l { k with state := .up, lanes := 32, streak := 0 } s))
      ∧ (∀ n, 16 ≤ n → n < 32 →
        exec (.linkTrainingResult l n) s = .next (setLink l { k with state := .degraded, lanes := 16, streak := 0 } s))
      ∧ ∀ i, i = .linkTrainingTimeout l ∨ (∃ n, n < 16 ∧ i = .linkTrainingResult l n) → ∃ t, exec i s = .next t
        ∧ (t.pkg.links[l]).state = .failed ∧ t.core.send = s.core.send.set l []
        ∧ t.pkg.fab.held = s.pkg.fab.held.filter (fun h => h.2 ≠ some l)
        ∧ (s.c.live = true → s.c.id.lease = true → (⟨.linkLost, BitVec.ofNat 64 l.val, false⟩ : Late) ∈ t.c.late))

/-- R301, R303, R304, R307: at the home of an ordered path only the next SEQ is performed, once the words that it reads of HBM
are delivered (log 106), and every packet is answered with the last SEQ accepted; a load, a store or an atomic that the home
does not translate is answered with a NAK, and one whose page is still to come waits; poison goes with the answer (log 96). At
the source an acknowledgement frees its packets, RTO sends them again, FABTMO abandons loads and aborts the contexts with a
store or an atomic outstanding. A
reply's data, which begins with the first byte not forwarded, lands in the destination, bytes forwarded from the context's own
stores stand, poisoned data is consumed (R184), and a NAK is a late trap at the address.
Choices of the model it rests on: log 17 (the layout of AUX); log 40 (reduce packets are performed and counted at once);
log 72 (packets that wait for their path); log 76 (a late packet); log 96 (AUX of messages); log 98 (what a new VER holds
back); log 106 (L2 sectors, HBM writes and the order of words). -/
def Obligations.OrderedPathResults : Prop :=
  (∀ (q : Packet) (s : State),
    let want := (look s.pkg.fab.expect q.src.toNat).getD 0
    let accepted (t : State) : Host.Outcome State Fault Refusal := .next (pathAck q want (t.withPkg { t.pkg with
      fab := { t.pkg.fab with expect := put t.pkg.fab.expect q.src.toNat (want + 1) } }))
    let home (k : Access) (n : Nat) := homeBytes k q.addr n s
    (q.dst ≠ s.pkg.nodeid → exec (.orderedPacketReceipt q) s = .next s)
    ∧ (q.dst = s.pkg.nodeid →
      (q.seq ≠ want → exec (.orderedPacketReceipt q) s = .next (pathAck q (want - 1) s))
      ∧ (q.seq = want →
        (q.kind = 0 → ∀ l, home .read q.aux.toNat = .ok l →
          let u := fetchHbm l s
          (hbmReady u.pkg.hbm l = false → exec (.orderedPacketReceipt q) s = .next u)
          ∧ (hbmReady u.pkg.hbm l = true → exec (.orderedPacketReceipt q) s = accepted (unfetch l (routePacket
            (answerTo q 6 1 (q.aux ||| poisonFlag (l.any (poisoned u.pkg))) (l.map (getByte u.pkg.mem)) u) u))))
        ∧ (q.kind = 1 → ∀ l, home .write q.data.length = .ok l →
          exec (.orderedPacketReceipt q) s = accepted (writeMem (l.zip q.data) s))
        ∧ (∀ k n, (q.kind = 0 ∧ k = .read ∧ n = q.aux.toNat) ∨ (q.kind = 1 ∧ k = .write ∧ n = q.data.length)
            ∨ (q.kind = 2 ∧ k = .both ∧ n = 8 ∧ (atomOf q.aux).isSome = true) →
          (∀ c, home k n = .error (.nak c) → exec (.orderedPacketReceipt q) s = accepted (sendNak (nakPacket q c s) s))
          ∧ ∀ f, home k n = .error (.waits f) → exec (.orderedPacketReceipt q) s = .next (homeWaits (.waits f) s))
        ∧ (q.kind = 2 → ∀ op l, atomOf q.aux = some op → home .both 8 = .ok l →
          let u := fetchHbm l s
          let x := BitVec.ofNat 64 (ofBytes (l.map (getByte u.pkg.mem)))
          let b := BitVec.ofNat 64 (ofBytes (q.data.take 8))
          let c := BitVec.ofNat 64 (ofBytes ((q.data.drop 8).take 8))
          let bad := l.any (poisoned u.pkg)
          let t := match if bad then none else atomNew op x b c with
            | some y => writeMem (l.zip (bytesOf 8 y.toNat)) u
            | none => u
          (hbmReady u.pkg.hbm l = false → exec (.orderedPacketReceipt q) s = .next u)
          ∧ (hbmReady u.pkg.hbm l = true → exec (.orderedPacketReceipt q) s
            = accepted (unfetch l (routePacket (answerTo q 6 1 (8 ||| poisonFlag bad) (bytesOf 8 x.toNat) t) t)))))))
  ∧ (∀ (node : BitVec 12) (s : State),
    let p := pathTo s.pkg.fab node
    (∀ n, p.unacked.any (fun x => x.1.seq = n) = true → exec (.orderedAckReceipt node n) s = .next (setPath node { p with
      unacked := p.unacked.filter (fun x => !serialLe x.1.seq n), since := s.pkg.devtime } s))
    ∧ (∀ n, p.unacked.any (fun x => x.1.seq = n) = false → exec (.orderedAckReceipt node n) s = .next s)
    ∧ (s.pkg.fab.conns = [] → exec (.rtoExpiry node) s
      = .next (if age s p.since < rtoNs s.pkg.fab then s else p.unacked.foldl (fun s x => routePacket x.1 s) s))
    ∧ (let late := p.unacked.filter (fun x => decide (tmoNs s.pkg.fab ≤ age s x.2))
      let hit (o : MemOp) : Bool := match o.kind with | .remoteLoad n _ _ => n = node | _ => false
      (late = [] → exec (.fabtmoExpiry node) s = .next s)
      ∧ (late ≠ [] → s.c.live = true → (storersTo node s).contains s.c.id.ctxid = true →
        ∃ t, exec (.fabtmoExpiry node) s = .next t ∧ t.c.live = false)
      ∧ (storersTo node s = [] → late ≠ [] → s.pkg.chans = [] → ∃ t, exec (.fabtmoExpiry node) s = .next t
        ∧ t.c.ops = s.c.ops.filter (fun o => !hit o) ∧ t.c.a = s.c.a ∧ t.pkg.mem = s.pkg.mem
        ∧ (∀ o ∈ s.c.ops, ∀ off l, o.kind = .remoteLoad node off l →
          (⟨.nodeUnreachable, remoteVa node off, false⟩ : Late) ∈ t.c.late))))
  ∧ (∀ (k : Nat) (o : MemOp) (s : State), s.c.ops[k]? = some o →
    let poisoned (n : BitVec 12) (off : Nat) : Host.Outcome State Fault Refusal :=
      .next (consumeError (remoteVa n off) { s with grp := { s.grp with pc := s.c.a.pc } })
    (∀ n off l d, o.kind = .remoteLoad n off l →
      exec (.remoteReplyData k ⟨d, false⟩) s = .next (landResult o (replyBytes l d) (dropOp k s))
      ∧ exec (.remoteReplyData k ⟨d, true⟩) s = poisoned n off
      ∧ ∀ b, exec (.nakReceipt k b) s = .next ((dropOp k s).withC { (dropOp k s).c with
          late := s.c.late ++ [⟨if b then .access else .unmapped, remoteVa n off, true⟩] }))
    ∧ ∀ n off op x y d, o.kind = .remoteAtom n off op x y →
      exec (.remoteReplyData k ⟨d, false⟩) s = .next (landResult o (cellsAt 0 (d.take 8)) (dropOp k s))
      ∧ exec (.remoteReplyData k ⟨d, true⟩) s = poisoned n off
      ∧ ∀ b, exec (.nakReceipt k b) s = .next ((dropOp k s).withC { (dropOp k s).c with
          late := s.c.late ++ [⟨if b then .access else .unmapped, remoteVa n off, true⟩] }))
  ∧ ∀ (l : List (Nat × LByte)) (d : List Byte) (n i x : Nat) (b : Byte),
    (l[n]? = some (i, .fwd b) → (replyBytes l d)[n]? = some (i, b))
      ∧ (l[n]? = some (i, .mem x) → (replyBytes l d)[n]? = some (i, d.getD (x - (fetchSpan l).1) 0)
        ∧ (fetchSpan l).1 ≤ x ∧ x < (fetchSpan l).1 + (fetchSpan l).2)

/-- R308, R313, R314, R318: rma.conn opens a closed connection, closing ends it once no message is left, and rma.stat reads it; a
get counter that is not aligned or lies in no region traps MISALIGN or BOUNDS;
the answer to an OPEN opens or refuses it, or reopens a broken one under the next epoch, whose unacknowledged messages are sent again; FABTMO closes an opening one and breaks one whose messages stay unacknowledged, a
broken one asks again and closes after 8 × FABTMO, and a home with a free record accepts an OPEN and keeps its notify offset.
How a close frees the target's record is the model's choice (log 97).
Choices of the model it rests on: log 12 (a TRADDR that no rule states is free); log 17 (the layout of AUX); log 41
(windows of connections); log 97 (how a target record is freed). -/
def Obligations.ConnectionResults : Prop :=
  (∀ (g : Fin 16) (a b : Src) (d : Reg) (s : State), guardOn g s = true →
    let x := valueOf a s
    let node : BitVec 12 := x.extractLsb' 4 12
    let gcw := (x.extractLsb' 16 22).toNat
    let ge := x.getLsbD 38
    let cn : Fin 16 := (x.extractLsb' 0 4).toFin
    let gcwOk (u : State) := ge = true → gcw % 4 = 0 ∧ (regionAt u.c.regions false gcw 4).isSome = true
    let gcwChecks (i : Instr) (u : State) : Prop := nodeInExt s.pkg.fab.ext node = true → ge = true →
      (gcw % 4 ≠ 0 → Traps i .misalign s) ∧ (gcw % 4 = 0 → regionAt u.c.regions false gcw 4 = none → Traps i .bounds s)
    (canRead2 a b s = true →
      let u := after2 a b s
      let y := valueB a b s
      gcwChecks (.rmaConn g a b) u
      ∧ (nodeInExt s.pkg.fab.ext node = false → Traps (.rmaConn g a b) .address s)
      ∧ (nodeInExt s.pkg.fab.ext node = true → gcwOk u →
        (y.toNat % 8 ≠ 0 → Traps (.rmaConn g a b) .misalign s)
        ∧ (y.toNat % 8 = 0 → (connOf u cn).state ≠ .closed → Traps (.rmaConn g a b) .connState s)
        ∧ (y.toNat % 8 = 0 → (connOf u cn).state = .closed →
          let c := connOf u cn
          let n : Conn := { c with
            state := .opening, epoch := c.epoch + 1, node := node, gcw := gcw, ge := ge, notify := (y.extractLsb' 0 48).toNat
            gets := 0, window := 65536, next := 0, out := [], acked := 0, since := s.pkg.devtime }
          exec (.rmaConn g a b) s = .next (emit (sendOpen n n.epoch (bindConn n u))))))
    ∧ (canRead a s = true →
      let u := afterRead a s
      let c := connOf u cn
      gcwChecks (.rmaConnClose g a) u
      ∧ (nodeInExt s.pkg.fab.ext node = false → Traps (.rmaConnClose g a) .address s)
      ∧ (nodeInExt s.pkg.fab.ext node = true → gcwOk u →
        (c.state ≠ .opened → c.state ≠ .opening → exec (.rmaConnClose g a) s = .next (emit u))
        ∧ (c.state = .opened ∨ c.state = .opening →
          let n : Conn := { c with state := .closing, since := s.pkg.devtime }
          (c.out ≠ [] → exec (.rmaConnClose g a) s = .next (emit (setConn n u)))
          ∧ (c.out = [] → exec (.rmaConnClose g a) s
            = .next (emit (sendLater { openPacket n c.epoch u with aux := 1 } (setConn { n with state := .closed } u)))))))
    ∧ (canRead b s = true → awaits (atStart s).c (.reg d) = false →
      exec (.rmaStat g d b) s = .next (sched (.s d (connStatus (connOf (atStart (afterRead b s)) ((valueOf b s).extractLsb' 0 4).toFin))
        (taintOf b s || predTaint s.c (guardReg g))) 2 (afterRead b s))))
  ∧ (∀ (ctx : W32) (cn : Fin 16) (s : State),
    let here := s.pkg.devtime
    (findConn s ctx cn = none → exec (.connectionTimeout ctx cn) s = .next s ∧ exec (.autoOpen ctx cn) s = .next s
      ∧ exec (.brokenClose ctx cn) s = .next s ∧ ∀ ok, exec (.answerReceipt ctx cn ok) s = .next (openAnswered ctx cn s))
    ∧ ∀ c, findConn s ctx cn = some c →
      let u := openAnswered ctx cn s
      let stuck := (outstanding c).any (fun m => match m.sent with | some t => decide (tmoNs s.pkg.fab ≤ age s t) | none => false)
      (c.state = .opening →
        exec (.answerReceipt ctx cn true) s
          = .next (pump { c with state := .opened, window := 65536, acked := 0, since := here } u)
        ∧ exec (.answerReceipt ctx cn false) s = .next (setConn { c with state := .closed, cause := 1, since := here } u)
        ∧ exec (.connectionTimeout ctx cn) s = .next (if tmoNs s.pkg.fab ≤ age s c.since then
            setConn { c with state := .closed, cause := 2, since := here } s else s))
      ∧ (c.state = .opened ∨ c.state = .closing → exec (.connectionTimeout ctx cn) s
        = .next (if stuck then setConn { c with state := .broken, since := here } s else s))
      ∧ (c.state = .broken → exec (.autoOpen ctx cn) s = .next (sendOpen c (c.epoch + 1) s)
        ∧ (let again (m : Message) : Message := { m with sent := some here, ver := s.pkg.fab.ver }
          let n : Conn := { c with
            state := .opened, epoch := c.epoch + 1, window := 65536, acked := 0, since := here
            out := c.out.map (fun m => if m.sent.isSome then again m else m) }
          exec (.answerReceipt ctx cn true) s
            = .next (pump n ((c.out.filter (fun m => m.sent.isSome)).foldl (fun t m => sendMessage n (again m) t) u)))
        ∧ (age s c.since < 8 * tmoNs s.pkg.fab → exec (.brokenClose ctx cn) s = .next s)
        ∧ (8 * tmoNs s.pkg.fab ≤ age s c.since → s.pkg.fab.gets = [] → c.out.any (fun m => !m.get) = false →
          ∃ t, exec (.brokenClose ctx cn) s = .next t ∧ t.c = s.c ∧ t.pkg.mem = s.pkg.mem
            ∧ t.pkg.fab.conns = (setConn { c with state := .closed, cause := 3, out := [], since := here } s).pkg.fab.conns))
      ∧ (c.state ≠ .broken → exec (.autoOpen ctx cn) s = .next s ∧ exec (.brokenClose ctx cn) s = .next s))
  ∧ ∀ (q : Packet) (s : State),
    (q.dst ≠ s.pkg.nodeid → exec (.openReceipt q) s = .next s)
    ∧ (q.dst = s.pkg.nodeid → q.aux = 1 → exec (.openReceipt q) s = .next (s.withPkg { s.pkg with fab := { s.pkg.fab with
        inbound := s.pkg.fab.inbound.filter (fun r =>
          !(r.src = q.src && r.ctxid = q.ctxid && r.cn = q.cn && r.epoch = q.epoch)) } }))
    ∧ (q.dst = s.pkg.nodeid → q.aux ≠ 1 →
      (findInbound s q = none → 4096 ≤ s.pkg.fab.inbound.length →
        exec (.openReceipt q) s = .next (routePacket (answerPacket q false s) s))
      ∧ ((findInbound s q).isSome = true ∨ s.pkg.fab.inbound.length < 4096 →
        exec (.openReceipt q) s
          = .next (routePacket (answerPacket q true s) (setInbound ⟨q.src, q.ctxid, q.cn, q.epoch, q.addr, [], []⟩ s))))

/-- R305, R309 to R313, R315 to R317: rma.put and rma.red buffer a message, rma.get asks for one at once, with their ADDRESS,
CONN_STATE, MISALIGN, BOUNDS, FORMAT and BUFFER_FULL traps; a put's packets land once each and the last notifies and is
acknowledged with the MARK of any of them; a reduce packet reduces at its home slice once, by its tag; a get's request is served
once and in the order of its path, and its data lands in its AS range, or, where it is poisoned, stops the get (R184, R221); an
acknowledgement widens the window, or halves it where it carries the mark. The place of CONN_STATE for a get without GE, and what
carries poison, are the model's choices (logs 92, 96).
Choices of the model it rests on: log 12 (a TRADDR that no rule states is free); log 17 (the layout of AUX); log 40
(reduce packets are performed and counted at once); log 41 (windows of connections); log 72 (packets that wait for their
path); log 77 (cancelled gets); log 92 (the place of TILE_OPEN); log 96 (AUX of messages). -/
def Obligations.MessageResults : Prop :=
  (∀ (g : Fin 16) (e : Fin 2) (nt cw : Bool) (op : Fin 16) (a b : Src) (s : State), guardOn g s = true → canRead2 a b s = true →
    let x := valueOf a s
    let y := valueB a b s
    let u := after2 a b s
    let cn : Fin 16 := (x.extractLsb' 60 4).toFin
    let off := (x.extractLsb' 0 48).toNat
    let src := (y.extractLsb' 0 48).toNat
    let k := (y.extractLsb' 48 8).toNat
    let n := if k = 0 then 256 else k
    let c := connOf u cn
    let live := c.state = .opened ∨ c.state = .opening
    let reds := op.val ≤ 5
    let puts (c : Cause) : Prop := Traps (.rmaPut g nt a b) c s ∧ (reds → Traps (.rmaRed g nt op a b) c s)
    (¬ reds → Traps (.rmaRed g nt op a b) .format s)
    ∧ ((x.extractLsb' 48 12).toNat ≠ 0 → puts .address ∧ Traps (.rmaGet g e cw a b) .address s)
    ∧ ((x.extractLsb' 48 12).toNat = 0 →
      (¬ live → puts .connState ∧ Traps (.rmaGet g e cw a b) .connState s)
      ∧ (live → cw = true → c.ge = false → Traps (.rmaGet g e cw a b) .connState s)
      ∧ (live → off % 256 ≠ 0 ∨ src % 256 ≠ 0 → puts .misalign)
      ∧ (live → (cw = true → c.ge = true) → off % 256 ≠ 0 ∨ (y.extractLsb' 0 22).toNat % 256 ≠ 0 →
        Traps (.rmaGet g e cw a b) .misalign s)
      ∧ (live → (cw = true → c.ge = true) → off % 256 = 0 → (y.extractLsb' 0 22).toNat % 256 = 0 →
        regionAt u.c.regions false (y.extractLsb' 0 22).toNat (256 * n) = none → Traps (.rmaGet g e cw a b) .bounds s)
      ∧ (live → off % 256 = 0 → src % 256 = 0 → 2 ^ 48 < src + 256 * n → puts .address)
      ∧ (live → off % 256 = 0 → src % 256 = 0 → src + 256 * n ≤ 2 ^ 48 → ∀ pas v, sourceRange src n u = .ok (pas, v) →
        (128 < remoteItems v.c.buf + 1 → puts .bufferFull)
        ∧ (remoteItems v.c.buf + 1 ≤ 128 →
          exec (.rmaPut g nt a b) s = .next (buffer (.message cn nt none off pas (256 * n)) v)
          ∧ (reds → exec (.rmaRed g nt op a b) s = .next (buffer (.message cn nt (some op) off pas (256 * n)) v))))
      ∧ (let dst := (y.extractLsb' 0 22).toNat
        let pri := ctlPri u.c.a.shadow[e]
        let m : Message := ⟨c.next, 256 * n, none, true, false, off, [], 0, u.c.phseq, none, u.pkg.fab.ver⟩
        live → (cw = true → c.ge = true) → off % 256 = 0 → dst % 256 = 0 →
        (regionAt u.c.regions false dst (256 * n)).isSome = true →
        engineReady (taint2 a b s || predTaint s.c (guardReg g)) u = .ok () → engineLoad u e < 16 → classBusy e pri u = false →
        c.state = .opened →
        windowRoom c m = true → pathRoom u.pkg.fab c.node 1 = true →
        let v := u.withC { u.c with engCount := u.c.engCount + 1 }
        let get : Get := ⟨ownerOf u, cn, c.next, u.c.engCount, e, pri, dst, n, cw, 0⟩
        exec (.rmaGet g e cw a b) s = .next (pump { c with out := c.out ++ [m], next := c.next + 1 }
          (v.withPkg { v.pkg with fab := { v.pkg.fab with gets := v.pkg.fab.gets ++ [get] } })))))
  ∧ (∀ (q : Packet) (op : Fin 16) (len : Nat) (nt : Bool) (s : State),
    let both (t : State) : Prop :=
      exec (.putPacketLanding q len nt) s = .next t ∧ (op.val ≤ 5 → exec (.redPacketApply q ⟨op, len, nt⟩) s = .next t)
    (5 < op.val → exec (.redPacketApply q ⟨op, len, nt⟩) s = .next s)
    ∧ (findInbound s q = none → both s)
    ∧ ∀ r, findInbound s q = some r →
      let l := landingOf r q.seq len
      (r.epoch ≠ q.epoch → both s)
      ∧ (r.epoch = q.epoch → completed r q.seq = true → both (messageAck q s))
      ∧ (r.epoch = q.epoch → completed r q.seq = false → l.bitmap.getLsbD q.poff = true → both s)
      ∧ (r.epoch = q.epoch → completed r q.seq = false → l.bitmap.getLsbD q.poff = false →
        (∀ c, homeBytes .write q.addr q.data.length s = .error (.nak c) → both (sendNak (messageNak q c s) s))
        ∧ (∀ pas, homeBytes .write q.addr q.data.length s = .ok pas →
          let l' : Landing := { l with bitmap := setBit l.bitmap q.poff true, count := l.count + 256, mark := l.mark || q.mark }
          let r' : Inbound := { r with landing := l' :: r.landing.filter (fun x => x.seq ≠ q.seq) }
          let done (t : State) : State :=
            if l.len ≤ l.count + 256 then completeMessage r' { q with mark := l'.mark } nt t else setInbound r' t
          exec (.putPacketLanding q len nt) s = .next (done (writeMem (pas.zip q.data) s))
          ∧ ∀ slice, op.val ≤ 5 → pas ≠ [] → (∀ pa ∈ pas, homeSlice pa = slice) →
            let tag := (q.aux.toNat % 2 ^ 48, q.aux.toNat / 2 ^ 48, q.poff)
            let tags := (look s.pkg.fab.tags slice).getD []
            let last := tags.find? (fun t => t.1 = q.ctxid)
            (∀ t, last = some t → tagAfter tag t.2 = false → exec (.redPacketApply q ⟨op, len, nt⟩) s = .next (done s))
            ∧ ((∀ t, last = some t → tagAfter tag t.2 = true) →
              let t := writeMem (pas.zip (redBytes op.val (pas.map (getByte s.pkg.mem)) q.data)) s
              exec (.redPacketApply q ⟨op, len, nt⟩) s = .next (done (t.withPkg { t.pkg with fab := { t.pkg.fab with
                tags := put s.pkg.fab.tags slice (((q.ctxid, tag) :: tags.filter (fun t => t.1 ≠ q.ctxid)).take 256) } }))))))
  ∧ (∀ (q : Packet) (s : State),
    let want := (look s.pkg.fab.expect q.src.toNat).getD 0
    let accepted (t : State) : Host.Outcome State Fault Refusal := .next (pathAck q want (t.withPkg { t.pkg with
      fab := { t.pkg.fab with expect := put t.pkg.fab.expect q.src.toNat (want + 1) } }))
    (q.kind ≠ 5 ∨ q.dst ≠ s.pkg.nodeid → exec (.getreqReceipt q) s = .next s)
    ∧ (q.kind = 5 → q.dst = s.pkg.nodeid →
      (q.seq ≠ want → exec (.getreqReceipt q) s = .next (pathAck q (want - 1) s))
      ∧ (q.seq = want →
        (∀ c, homeBytes .read q.addr (q.aux.toNat % 2 ^ 24) s = .error (.nak c) →
          exec (.getreqReceipt q) s = accepted (sendNak (messageNak q c s) s))
        ∧ ∀ pas, homeBytes .read q.addr (q.aux.toNat % 2 ^ 24) s = .ok pas →
          let u := fetchHbm pas s
          (hbmReady u.pkg.hbm pas = false → exec (.getreqReceipt q) s = .next u)
          ∧ (hbmReady u.pkg.hbm pas = true → exec (.getreqReceipt q) s = accepted (unfetch pas (getAnswer q pas u)))
          ∧ (pas.length = 256 → getAnswer q pas u = routePacket
            { answerTo (asMessage q) 6 1 (messageFlag ||| poisonFlag (pas.any (poisoned u.pkg))) (pas.map (getByte u.pkg.mem)) u
              with poff := 0 } u))))
  ∧ (∀ (ctx : W32) (cn : Fin 16) (seq : W32) (poff : Nat) (data : ReplyData) (s : State),
    let found := s.pkg.fab.gets.find? (fun g => g.own.ctxid = ctx && g.cn = cn && g.seq = seq)
    (found = none → exec (.getDataLanding ctx cn seq poff data) s = .next s)
    ∧ ∀ g, found = some g →
      let h := { g with got := setBit g.got poff true }
      let held := sourceHeld s ctx (2 ^ 64) (g.off + 256 * poff) 256 = true ∨ (popN 256 h.got.toNat = g.n ∧ gcwHeld g s = true)
      (g.n ≤ poff ∨ g.got.getLsbD poff = true ∨ held → exec (.getDataLanding ctx cn seq poff data) s = .next s)
      ∧ (poff < g.n → g.got.getLsbD poff = false → ¬ held →
        (data.poison = true → exec (.getDataLanding ctx cn seq poff data) s = .next (poisonGet g poff s))
        ∧ (data.poison = false → s.c.live = true → s.c.id.ctxid = g.own.ctxid →
          ∀ r, regionAt s.c.regions false (g.off + 256 * poff) 256 = some r →
            let t := landBuf g.own false (cellsAt (r.phys true (g.off + 256 * poff)) (data.bytes.take 256)) s
            (popN 256 h.got.toNat = g.n → exec (.getDataLanding ctx cn seq poff data) s = .next (finishGet h t))
            ∧ (popN 256 h.got.toNat ≠ g.n → exec (.getDataLanding ctx cn seq poff data) s = .next (t.withPkg { t.pkg with
              fab := { t.pkg.fab with gets := t.pkg.fab.gets.map (fun x => if x = g then h else x) } })))))
  ∧ ∀ (ctx : W32) (cn : Fin 16) (seq : W32) (mark : Bool) (s : State),
    (findConn s ctx cn = none → exec (.messageAckReceipt ctx cn seq mark) s = .next s)
    ∧ ∀ c m, findConn s ctx cn = some c → (outstanding c).find? (fun m => m.seq = seq && !m.get) = some m →
      let left := c.out.filter (fun x => x.seq ≠ seq)
      let n : Conn := if mark = false then { c with window := min (c.window + 4096) 4194304, acked := c.acked + m.len, out := left }
        else if c.acked + m.len < c.window then { c with acked := c.acked + m.len, out := left }
        else { c with window := max (c.window / 2 / 256 * 256) 8192, acked := 0, out := left }
      exec (.messageAckReceipt ctx cn seq mark) s = .next (onConn c.ctxid c.cn settleConn (pump n s))

/-! ## Pages and ports (06, 16) -/

/-- R157, R161 to R164: the MMP maps a cleared frame, a host page or the page a pager has filled where the walk stopped, and
the frozen context goes on; where it finds nothing the context is to trap UNMAPPED, and a task record that a dispatcher was to
read is refused. A freeze that has lasted FREEZEMAX in a
phase that is not emitted ends in a rollback and a switch-out; a page that migrates takes its bytes with it, and the PTE over
it names its new place. A page that the host backs is mapped through the host port only, and waits while that is down (R422). A
pager is called with a fault record in its queue and its launch word written, and its frame is mapped when it has filled it; how
it is registered and found, the frame's size and the tables above it are the model's choices (logs 9, 42, 103).
Choices of the model it rests on: log 9 (the frame of the allocator is opaque); log 32 (pages of a retired pseudo-
channel); log 42 (how pagers are registered); log 43 (migration); log 89 (pages that are not migrated); log 103 (the page
of an upcall for a large PTE). -/
def Obligations.PageServiceResults : Prop :=
  ∀ (s : State),
    let goes (t : State) : Host.Outcome State Fault Refusal := .next (t.withC { s.c with frozen := none })
    (nextClient s = none → ∀ m, exec (.mmpFaultService m) s = .next s)
    ∧ (∀ f pa, nextClient s = some (.here f) → f.ptePa = some pa →
      let pte := getNum s.pkg.mem pa 8
      (∀ x : W64, pteValid x.toNat = true →
        let n := pteSpan x.toNat f.level
        let lo := alignDown (pteFrame x.toNat) n
        (pteHB pte = false → rangeGone s.pkg.hbm lo n = false → exec (.mmpFaultService (.frame x)) s
          = goes (writeMem (cellsAt pa (bytesOf 8 x.toNat)) (s.withPkg (clearRange lo n s.pkg))))
        ∧ (pteHB pte = true ∨ rangeGone s.pkg.hbm lo n = true → exec (.mmpFaultService (.frame x)) s = .next s)
        ∧ (pteHB pte = true → s.pkg.hostUp = true →
          exec (.mmpFaultService (.host x)) s = goes (writeMem (cellsAt pa (bytesOf 8 x.toNat)) s))
        ∧ (s.pkg.hostUp = false → exec (.mmpFaultService (.host x)) s = .next s))
      ∧ (ptePG pte = false ∨ pagerOf (.here f) s = none → exec (.mmpFaultService .pager) s = .next s)
      ∧ (∀ i g, ptePG pte = true → pagerOf (.here f) s = some (i, g, true) →
        exec (.mmpFaultService .pager) s = .next (s.withC { s.c with frozen := none, unmapped := f.va :: s.c.unmapped }))
      ∧ (∀ i g, ptePG pte = true → pagerOf (.here f) s = some (i, g, false) →
        let n := if f.level = 4 then 2 ^ tileLog pte else 2 ^ 16
        let frame := alignDown (Config.allocFrame s.tick n 0) n
        (rangeFree s frame n = false → exec (.mmpFaultService .pager) s = .next s)
        ∧ (rangeFree s frame n = true →
          let u := s.withPkg { clearRange frame n s.pkg with
            pagers := setAt s.pkg.pagers i { g with next := (g.next + 1) % g.slots }
            tickets := s.pkg.tickets ++ [(BitVec.ofNat 32 s.tick, f, frame)] }
          let record := bytesOf 8 (f.va.toNat / 2 ^ 16 * 2 ^ 16) ++ bytesOf 2 g.asid.toNat ++ bytesOf 1 f.space ++ bytesOf 1 f.access
            ++ bytesOf 4 (s.tick % 2 ^ 32) ++ bytesOf 8 frame ++ bytesOf 8 0
          exec (.mmpFaultService .pager) s = .next (writeMem (cellsAt g.launch (bytesOf 8 g.word.toNat))
            (writeMem (cellsAt (g.queue + 32 * g.next) record) u))))
      ∧ (pteHB pte = false ∨ s.pkg.hostUp = true → exec (.mmpFaultService .nothing) s
        = .next (s.withC { s.c with frozen := none, unmapped := f.va :: s.c.unmapped }))
      ∧ (pteHB pte = true → s.pkg.hostUp = false → exec (.mmpFaultService .nothing) s = .next s))
    ∧ (∀ f, nextClient s = some (.disp f) → pteHB (foundPte f s) = false →
      exec (.mmpFaultService .nothing) s = .next (s.withPkg { s.pkg with unbacked := f :: s.pkg.unbacked }))
    ∧ (∀ n, s.pkg.tickets.find? (fun t => t.1 = n) = none → exec (.pagerCompletion n) s = .next s)
    ∧ (∀ n f frame pa, s.pkg.tickets.find? (fun t => t.1 = n) = some (n, f, frame) → s.c.frozen = some f → f.ptePa = some pa →
      let old := getNum s.pkg.mem pa 8
      (mapPaged f frame s = none → exec (.pagerCompletion n) s = .next s)
      ∧ (∀ u, mapPaged f frame s = some u → exec (.pagerCompletion n) s
        = goes (u.withPkg { u.pkg with tickets := s.pkg.tickets.filter (fun t => t.1 ≠ n) }))
      ∧ (3 ≤ f.level → mapPaged f frame s = some (writeMem (cellsAt pa (bytesOf 8 (pagedPte old frame).toNat)) s)))
    ∧ (s.c.frozen = none → s.c2.frozen = none → exec .freezeLimit s = .next s)
    ∧ (∀ f, s.c.frozen = some f → s.c2.frozen = none → s.c.emitted = false → s.c.saving = false →
      let limit := s.pkg.freezemax.toNat % 2 ^ 32
      let waited := (s.pkg.devtime - s.c.frozenSince).toNat
      (limit = 0 ∨ waited < limit → exec .freezeLimit s = .next s)
      ∧ (limit ≠ 0 → limit ≤ waited → ∃ t, exec .freezeLimit s = .next t ∧ t.c.a = { s.c.ck with opens := [] } ∧ t.c.frozen = some f
        ∧ t.c.saving = true ∧ t.c.buf = [] ∧ t.pkg.mem = s.pkg.mem))
    ∧ (s.c.clearing = true → exec .clearingComplete s = .next (s.withC { s.c with clearing := false }))
    ∧ (∀ x,
      let log := pageLog s x
      let base := alignDown x (2 ^ log)
      (x % 2 ^ 16 = 0 → mayMigrate base log s = true → exec (.pageMigrationStart x) s
        = .next (s.withPkg { s.pkg with migrating := s.pkg.migrating ++ pageFrames base log }))
      ∧ (x % 2 ^ 16 ≠ 0 ∨ mayMigrate base log s = false → exec (.pageMigrationStart x) s = .next s)
      ∧ (mayMigrate base log s = true → ∀ f ∈ pageFrames base log, pinsOf s.pkg f = 0 ∧ f ∉ flyingFrames s ∧ f ∉ s.pkg.migrating))
    ∧ (s.pkg.migrating = [] → ∀ x, exec (.pageMigrationEnd x) s = .next s)
    ∧ (∀ old rest new, s.pkg.migrating = old :: rest →
      let n := 2 ^ pageLog s old
      let inPage (a : Nat) : Prop := old ≤ a ∧ a < old + n
      (rangeGone s.pkg.hbm new n = true → exec (.pageMigrationEnd new) s = .next s)
      ∧ (new % n = 0 → paExists new = true → new + n ≤ old ∨ old + n ≤ new → rangeGone s.pkg.hbm new n = false → ∃ t,
      exec (.pageMigrationEnd new) s = .next t ∧ t.c.a = s.c.a ∧ t.c2.a = s.c2.a ∧ t.core.as = s.core.as
        ∧ t.core.cb = s.core.cb ∧ (∀ f, f ∈ t.pkg.migrating ↔ f ∈ s.pkg.migrating ∧ ¬ inPage f)
        ∧ (∀ e ∈ t.pkg.tlb, ¬ inPage (pteFrame e.pte.toNat))
        ∧ (Memory.wf s.pkg.mem = true → leavesInUse s = [] →
          ∀ i, i < n → getByte t.pkg.mem (new + i) = getByte s.pkg.mem (old + i))
        ∧ (Memory.wf s.pkg.mem = true → ∀ pte log, leavesInUse s = [(pte, log)] →
          old ≤ leafBase s.pkg.mem (pte, log) → leafBase s.pkg.mem (pte, log) + 2 ^ log ≤ old + n →
          pte + 8 ≤ old ∨ old + n ≤ pte → pte + 8 ≤ new ∨ new + n ≤ pte →
          getNum t.pkg.mem pte 8 = (getNum s.pkg.mem pte 8 - old + new) % 2 ^ 64)))

/-- R153, R165, R271, R283, R420, R422, R425: the ports of the pool and the host go down and retrain within 16 attempts; a
write by the host is a write of the memory it reaches, and of nothing else; a back-invalidation reaches the residencies that
watch the line and no byte; the MMP serves the supervisor's requests. Registering a pager is the model's form of what no rule
gives (log 42), and so is how the pages of a retired pseudo-channel move, which happens in later steps (log 32).
Choices of the model it rests on: log 32 (pages of a retired pseudo-channel); log 42 (how pagers are registered); log 45
(FIFO words without a lease); log 61 (discarded lines); log 100 (what a host write reaches). -/
def Obligations.PortAndServiceResults : Prop :=
  ∀ (s : State),
    let set (p : Pkg) : Host.Outcome State Fault Refusal := .next (s.withPkg p)
    (∀ k : Fin 2, exec (.poolLinkLost k) s = set { s.pkg with
        poolUp := s.pkg.poolUp.set k false, poolTries := s.pkg.poolTries.set k 0 }
      ∧ ∀ ok, (s.pkg.poolUp[k] = false → s.pkg.poolTries[k] < 16 → exec (.poolPortRetrain k ok) s = set { s.pkg with
          poolUp := s.pkg.poolUp.set k ok, poolTries := s.pkg.poolTries.set k (s.pkg.poolTries[k] + 1) })
        ∧ (s.pkg.poolUp[k] = true ∨ 16 ≤ s.pkg.poolTries[k] → exec (.poolPortRetrain k ok) s = .next s))
    ∧ exec .hostPortDown s = set { s.pkg with hostUp := false, hostTries := 0 }
    ∧ (∀ ok, (s.pkg.hostUp = false → s.pkg.hostTries < 16 →
        exec (.hostPortRetrain ok) s = set { s.pkg with hostUp := ok, hostTries := s.pkg.hostTries + 1 })
      ∧ (s.pkg.hostUp = true ∨ 16 ≤ s.pkg.hostTries → exec (.hostPortRetrain ok) s = .next s))
    ∧ (∀ pa d, ((∀ i < d.length, hostReaches s.pkg (pa + i) = true) →
        exec (.hostCxlMemWrite pa d) s = .next (writeMem (cellsAt pa d) s))
      ∧ (∀ i < d.length, hostReaches s.pkg (pa + i) = false → exec (.hostCxlMemWrite pa d) s = .next s)
      ∧ ∀ a, hostReaches s.pkg a = true ↔ s.pkg.hostUp = true
        ∧ (a < 2 ^ 39 ∧ s.pkg.hbm.retiredPc.contains (a / 2 ^ 30) = false
            ∧ s.pkg.hbm.lanemap.getLsbD (8 * (a / 2 ^ 36)) = false ∨ a / 2 ^ 48 = 3))
    ∧ (∀ pa, ∃ t, exec (.poolBackInvalidation pa) s = .next t ∧ t.c = s.c ∧ t.c2 = s.c2 ∧ t.pkg = s.pkg
      ∧ t.core.as = s.core.as ∧ t.core.cb = s.core.cb
      ∧ ∀ i, pa / 2 ^ 48 = 2 → (resEnt s.core i).state = .ready → (resEnt s.core i).watched = true →
        (∃ r ∈ (resEnt s.core i).watch, ∃ a, pa / 256 * 256 ≤ a ∧ a < pa / 256 * 256 + 256 ∧ r.1 ≤ a ∧ a < r.1 + r.2) →
        (resEnt t.core i).state = .stale)
    ∧ (∀ l : LinkNo, ∃ k, exec (.linkPartnerLost l) s
        = .next (if linkCarries s.pkg l then s.withPkg { s.pkg with links := s.pkg.links.set l k } else s) ∧ k.state = .retrain ∧ k.lanes = 0)
    ∧ (∀ l : LinkNo, (s.pkg.links[l]).state = .failed → ∃ k, exec (.mmpServiceRequest (.retrainLink l)) s
        = set { s.pkg with links := s.pkg.links.set l k } ∧ k.state = .training)
    ∧ (∀ l : LinkNo, linkCarries s.pkg l = true → exec (.mmpServiceRequest (.retrainLink l)) s
      = .next (setLink l { s.pkg.links[l] with state := .retrain, lanes := 0, streak := 0 } s))
    ∧ (∀ l : LinkNo, exec (.mmpServiceRequest (.swapLinkLane l)) s = (if (s.pkg.links[l]).state = .up then
        .next (setLink l { s.pkg.links[l] with state := .retrain, lanes := 0, streak := 0 } s) else .next s))
    ∧ (∀ e asid sp lo hi q n w v, n ≠ 0 → exec (.mmpServiceRequest (.registerPager e asid sp lo hi q n w v)) s
      = set { s.pkg with pagers := s.pkg.pagers ++ [⟨e, asid, sp.val, lo, hi, q, n, 0, w, v⟩] })
    ∧ (∀ k : Fin 2, s.pkg.poolUp[k] = false →
      exec (.mmpServiceRequest (.retrainPool k)) s = set { s.pkg with poolTries := s.pkg.poolTries.set k 0 })
    ∧ (s.pkg.hostUp = false → exec (.mmpServiceRequest .retrainHost) s = set { s.pkg with hostTries := 0 })
    ∧ (∀ k : Fin 2, s.pkg.poolUp[k] = true → exec (.mmpServiceRequest (.discardOrphans k)) s = .next s)
    ∧ (∀ c, ∃ p, exec (.mmpServiceRequest (.retireCore c)) s = set p ∧ p.retired.contains c = true ∧ p.mem = s.pkg.mem)
    ∧ (∀ c, ∃ p, exec (.mmpServiceRequest (.quarantineCore c)) s = set p
      ∧ (p.cullet.contains c = true ∨ p.retired.contains c = true) ∧ p.mem = s.pkg.mem)
    ∧ (∀ c v u, ∃ p, exec (.mmpServiceRequest (.narrowCore c v u)) s = set p ∧ p.mem = s.pkg.mem)
    ∧ (∀ (k : Fin 8) (l : Fin 2048), laneInUse s.pkg.hbm k.val l.val = true → spareFree s.pkg.hbm k.val (l.val / 64) = true →
      exec (.mmpServiceRequest (.swapLane k l)) s
        = set { s.pkg with hbm := { s.pkg.hbm with swapping := s.pkg.hbm.swapping ++ [(k.val, l.val)] } })
    ∧ ∀ (k : Fin 8) (q : Fin 64), ∃ h, exec (.mmpServiceRequest (.retirePc k q)) s = set { s.pkg with hbm := h }
      ∧ h.retiredPc.contains (64 * k.val + q.val) = true

/-! ## The device (16) -/

/-- R426, R432 to R435: a transfer whose parity holds and whose word ECC finds right delivers it and logs nothing; one wrong
symbol is corrected and logged with its place; a word that cannot be corrected is delivered with poison and its
pseudo-channel retired, whose pages move later (log 32). A transfer whose parity fails is retried, up to four times, each retry
counted in LINKLOG with the lane (log 110); the third within 1 s on one lane swaps it, where the channel's spare is free, and
the word is held; a word whose last retry fails is delivered with poison and sets LINKLOG.FAIL. A channel that swaps a lane holds its
transfers until the swap completes, and they then run. What strikes the cells and the lanes is the event's (logs 7, 106).
Choices of the model it rests on: log 7 (an HBM word with three or more bad symbols); log 31 (poison and its address); log
32 (pages of a retired pseudo-channel); log 63 (HALT and lane swaps); log 106 (L2 sectors, HBM writes and the order of
words); log 110 (retries on several lanes). -/
def Obligations.HbmTransferResults : Prop :=
  ∀ (x : HbmXfer) (s : State), x.pa < 2 ^ 39 →
    let w := x.pa / 64
    let stack := x.pa / 2 ^ 36
    let chan := x.pa / 2 ^ 31 % 32
    let h := strike x s.pkg.hbm
    let wrong := (x.badSymbols.filter (fun k => k < 128)).eraseDups
    let lanes (i : Nat) : List Nat := (x.parity.getD i []).filter (fun k => k / 64 = chan && laneInUse h stack k)
    let gives (m : Hbm) : Prop := exec (.hbmWordTransfer x) s = .next (s.withPkg { s.pkg with hbm := m })
    (x.now = false → gives h)
    ∧ (x.now = true → chanSwaps h stack chan = true → ∃ m, gives m ∧ m.waiting = h.waiting ++ [(w, 0)] ∧ m.ecclog = h.ecclog
      ∧ m.linklog = h.linklog ∧ m.poison = h.poison)
    ∧ (x.now = true → chanSwaps h stack chan = false →
      (∀ n, n ≤ 4 → (∀ i, i < n → lanes i ≠ []) → lanes n = [] → (n = 0 ∨ spareFree h stack chan = false) →
        let logged := (List.range n).foldl (fun l i => linkLogged l stack (lanes i)) h.linklog
        (wrong = [] → ∃ m, gives m ∧ m.linklog = logged ∧ m.ecclog = h.ecclog ∧ m.poison = h.poison.filter (fun v => v ≠ w))
        ∧ (∀ k, wrong = [k] → ∃ m, gives m ∧ m.linklog = logged ∧ m.poison = h.poison.filter (fun v => v ≠ w)
          ∧ (h.ecclog.getLsbD 63 = false → m.ecclog = BitVec.ofNat 64 (2 ^ 63 + 2 ^ 48 + w * 2 ^ 12 + 128 + k)))
        ∧ ∀ j k, wrong = [j, k] → ∃ m, gives m ∧ m.linklog = logged ∧ m.poison.contains w = true
          ∧ m.retiredPc.contains (x.pa / 2 ^ 30) = true
          ∧ (h.ecclog.getLsbD 63 = false → m.ecclog = BitVec.ofNat 64 (2 ^ 63 + 2 ^ 62 + 2 ^ 48 + w * 2 ^ 12 + 255)))
      ∧ (∀ k, lanes 0 = [k] → spareFree h stack chan = true →
        2 ≤ (h.retries.filter (fun e => within1s e.2.2 s.pkg.devtime && e.1 = stack && e.2.1 = k)).length →
        ∃ m, gives m ∧ m.swapping = h.swapping ++ [(stack, k)] ∧ m.waiting = h.waiting ++ [(w, 1)]
          ∧ m.linklog = linkLogged h.linklog stack [k] ∧ m.ecclog = h.ecclog ∧ m.poison = h.poison)
      ∧ ((∀ i, i < 5 → lanes i ≠ []) → spareFree h stack chan = false →
        ∃ m, gives m ∧ m.ecclog = h.ecclog ∧ m.linklog.getLsbD 62 = true ∧ m.poison.contains w = true))
    ∧ (∀ n k, 1 ≤ n → n ≤ 4 → k < 2048 → h.linklog.getLsbD 63 = false →
      (List.range n).foldl (fun l _ => linkLogged l stack [k]) h.linklog
        = BitVec.ofNat 64 (2 ^ 63 + n * 2 ^ 48 + (stack * 2 ^ 11 + k) * 2 ^ 34 + k / 64 * 2 ^ 29))
    ∧ ∀ (k : Fin 8) (c : Fin 32),
      let h := s.pkg.hbm
      let swap (l : Nat) : Prop := h.swapping.find? (fun y => y.1 = k.val && y.2 / 64 = c.val) = some (k.val, l)
      (chanSwaps h k.val c.val = false → exec (.laneSwapComplete k c) s = .next s)
      ∧ (∀ l, h.waiting = [] → swap l → exec (.laneSwapComplete k c) s = .next (s.withPkg { s.pkg with hbm := { h with
          swapping := h.swapping.erase (k.val, l)
          spares := h.spares ++ [(k.val, c.val, l)]
          lanemap := h.lanemap + BitVec.ofNat 64 (2 ^ (8 * k.val + 2)) } }))
      ∧ ∀ l v r, h.waiting = [(v, r)] → swap l → v / 2 ^ 30 % 8 = k.val → v / 2 ^ 25 % 32 = c.val → look h.parity v = none →
        look h.cells v = none → ∃ m, exec (.laneSwapComplete k c) s = .next (s.withPkg { s.pkg with hbm := m })
          ∧ m.waiting = [] ∧ m.fetched.contains v = true ∧ m.poison.contains v = false ∧ m.linklog = h.linklog

/-- R421, R424, R427 to R430: an alarm acts as its policy says; only a command signed under the firmware key (SHA-256 and
ECDSA P-256, R2) clears the boot record; BAR0 shows the record and the mailbox, zero elsewhere, and takes a write of the nonce
alone (R421; the mailbox's layout is the model's choice, log 99); a nonce cancels the
report pending, and the report answers it; the clock steps by sixteenths between 7/16 and 1. A boot counts, holds the
package in reset unless every step passes, keeps the key store unit's keys and the statuses of the steps that it does not
reach, and takes its policies from a configuration that is signed, which only raises them (R427). An image that the loader
refuses changes nothing. That HBM lists nothing after a power cycle, and the form of the configuration and of the alarm log's
entries, are the model's choices (logs 10, 62).
Choices of the model it rests on: log 8 (key bytes, private keys and signing numbers); log 10 (bytes never written read as
0); log 62 (boot records and links); log 63 (HALT and lane swaps); log 64 (what the loader refuses); log 99 (the mailbox
in BAR0). -/
def Obligations.BootAndAlarmResults : Prop :=
  ∀ (s : State),
    let set (p : Pkg) : Host.Outcome State Fault Refusal := .next (s.withPkg p)
    let k := s.pkg.ksu
    (∀ i : Fin 4, let e : Instr := match i with | 0 => .voltageAlarm | 1 => .clockAlarm | 2 => .temperatureAlarm | 3 => .lidMeshAlarm
      (k.policy[i] = .log → exec e s = set { s.pkg with ksu := { k with log := k.log ++ [alarmRecord s] } })
      ∧ (k.policy[i] = .halt → exec e s = set { s.pkg with inReset := true })
      ∧ (k.policy[i] = .erase → exec e s = set { s.pkg with ksu := { k with idKey := false, attKey := false }, inReset := true }))
    ∧ (∀ cmd key sig, let signed := sha256 key = k.keyHash ∧ ecdsaVerify key (sha256 cmd) sig = true
      (¬ signed → exec (.bootRecordClear ⟨cmd, key, sig⟩) s = .next s)
      ∧ (signed → exec (.bootRecordClear ⟨cmd, key, sig⟩) s = set { s.pkg with boot := { s.pkg.boot with
          status := Vector.replicate 8 0, failed := 0, count := 0 } }))
    ∧ (∀ off, (off < 64 → bar0Byte off s = (bootRecord s.pkg.boot).getD off 0) ∧ (64 ≤ off → off < 0x100 → bar0Byte off s = 0)
      ∧ ∀ b, off ≠ 0x100 ∨ b.length ≠ 32 → bar0Write off b s = s)
    ∧ (∀ n i, s.pkg.boot.nonce = some n → bar0Byte (0x100 + i) s = (bytesOf 32 n.toNat).getD i 0)
    ∧ (∀ n, exec (.mailboxNonceWrite n) s = set { s.pkg with boot := { s.pkg.boot with nonce := some n, report := none } })
    ∧ (s.pkg.boot.nonce = none → exec .attestationReportReady s = .next s)
    ∧ (∀ n, s.pkg.boot.nonce = some n → ∃ tail, exec .attestationReportReady s = set { s.pkg with boot := { s.pkg.boot with
        nonce := none
        report := some (bytesOf 8 (devidValue s.pkg).toNat ++ bootRecord s.pkg.boot
          ++ s.pkg.boot.images.flatMap (fun d => bytesOf 32 d.toNat) ++ bytesOf 32 n.toNat ++ tail) } }
      ∧ tail.length = if k.attKey then 64 else 0)
    ∧ exec .clockStepDown s = set { s.pkg with clock16 := max 7 (s.pkg.clock16 - 1) }
    ∧ exec .clockStepUp s = set { s.pkg with clock16 := min 16 (s.pkg.clock16 + 1) }
    ∧ (∀ r : BootRun, ∃ t, exec (.powerOnBoot r) s = .next t ∧ t.c.live = false ∧ t.c2.live = false ∧ t.pkg.nodeid = r.node
      ∧ t.pkg.boot.count = s.pkg.boot.count + 1 ∧ t.pkg.ksu.keyHash = k.keyHash ∧ t.pkg.ksu.idKey = k.idKey
      ∧ t.pkg.mem = s.pkg.mem.filter (fun c => 2 ^ 48 ≤ c.1) ∧ t.pkg.inReset = decide (t.pkg.boot.failed ≠ 0)
      ∧ (r.pass.getD 0 true = false ∨ loadPolicies r.config k = none → t.pkg.boot.failed = 1
        ∧ ∀ i : Fin 8, 1 ≤ i.val → t.pkg.boot.status[i] = s.pkg.boot.status[i])
      ∧ (r.pass.getD 0 true = true → (loadPolicies r.config k).isSome = true → imageAccepted k r = false →
        t.pkg.boot.failed = 2))
    ∧ (∀ c u v, loadPolicies c u = some v → sha256 c.key = u.keyHash ∧ ecdsaVerify c.key (sha256 c.bytes) c.sig = true
      ∧ ∀ i : Fin 4, policyRank u.policy[i] ≤ policyRank v.policy[i])
    ∧ ∀ (d : Fin 2) (n : Fin 16) (img : List Byte),
      (loadImage d n img s = none → exec (.gixImageLoad d n img) s = .next s)
      ∧ (∀ t, loadImage d n img s = some t → exec (.gixImageLoad d n img) s = .next t)
      ∧ (img.length < 64 → exec (.gixImageLoad d n img) s = .next s)

/-! ## Collectives (12) -/

/-- R319, R321, R322, R325, R326, R328 to R331, R334 to R337: the channel slots. What fails the checks traps CHANNEL or
GROUP_ABORT; without DEPTH left the group waits; otherwise the operation starts, ISSUED counts by one, its source is read as the
group finds it, and neither registers nor global memory change. One that carries REL is kept with what it follows, and no packet
leaves, until that is performed and published. ch.recv and ch.wait keep the next group until the count of
the event is reached; ch.q reads the entry.
Choices of the model it rests on: log 12 (a TRADDR that no rule states is free); log 24 (the layout of collective and
attention packets); log 46 (the order of channel traps); log 47 (what an operation waits for, and early messages); log 107
(poisoned bytes of typed buffers). -/
def Obligations.ChannelResults : Prop :=
  (∀ (g : Fin 16) (rel acq : Bool) (ev : ChEvent) (a b : Src) (d : Reg) (s : State), guardOn g s = true →
    let x := valueOf a s
    let ch : BitVec 8 := x.extractLsb' 0 8
    let u := afterRead a s
    let starts (i : Instr) (kind : Nat) : Prop :=
      (∀ c, chanCheck (some kind) ch u = .error (.trap c none) → Traps i c s)
      ∧ ∀ c, chanCheck (some kind) ch u = .ok c → (kind = 1 → isSender u c.ent = true) →
        (chDepth c.ent ≤ chanOut u c → exec i s
          = .next { s with grp := { s.grp with stall := some .resource, depth := some ch } })
        ∧ (chanOut u c < chDepth c.ent →
          Sys2Proof.Machine.soundBuf false (if usesSource u c.ent then sourceSlot c.ent c.issued else []) u = .ok () →
          engineReady (taintOf a s || predTaint s.c (guardReg g)) u = .ok () →
          let m := takeMember ch c (emit u)
          let held : Bool := rel && !mayRelease (chScope c.ent) s.c.gc (atStart (nextEngine m).2)
          (c.owner.isSome = true → m = emit u)
          ∧ ∃ t, exec i s = .next t ∧ t.c.a = s.c.a ∧ t.c2.a = s.c2.a ∧ t.c.emitted = true ∧ t.pkg.mem = s.pkg.mem
            ∧ t.core.cb = s.core.cb ∧ (chanAt t ch).issued = c.issued + 1
            ∧ (usesSource u c.ent = true → c.sr ≤ c.issued →
              (collOp (chanAt t ch) c.issued).src = (sourceSlot c.ent c.issued).map (getByte m.core.as)
              ∧ (collOp (chanAt t ch) c.issued).waits = (if held then some s.c.gc else none)
              ∧ (held = true → t.pkg.fab = m.pkg.fab)))
    (canRead a s = true →
      starts (.chSend g rel a) 1 ∧ starts (.chRed g rel a) 2 ∧ starts (.chBcast g rel a) 3 ∧ starts (.chAgat g rel a) 4
      ∧ ∀ c, chanCheck (some 1) ch u = .ok c →
        (isSender u c.ent = true → Traps (.chRecv g a) .channel s)
        ∧ (isSender u c.ent = false → chanOut u c < chDepth c.ent →
          engineReady (taintOf a s || predTaint s.c (guardReg g)) u = .ok () →
          ∃ t, exec (.chRecv g a) s = .next t ∧ t.c.a = s.c.a ∧ t.c.emitted = true ∧ t.c.waits = s.c.waits ++ [.chRecv ch]
            ∧ t.pkg.mem = s.pkg.mem ∧ (chanAt t ch).issued = c.issued + 1))
    ∧ (canRead2 a b s = true →
      let v := after2 a b s
      (∀ c, chanCheck none ch v = .error (.trap c none) → Traps (.chWait g ev acq a b) c s)
      ∧ ∀ c, chanCheck none ch v = .ok c → exec (.chWait g ev acq a b) s
        = .next (waitFor (.chWait ch ev ((valueB a b s).extractLsb' 0 32)) (takeMember ch c v)))
    ∧ (canRead b s = true → awaits (atStart s).c (.reg d) = false → exec (.chQ g d b) s
      = .next (sched (.s d (chanStatus ((valueOf b s).extractLsb' 0 8) (atStart (afterRead b s)))
        (taintOf b s || predTaint s.c (guardReg g))) 1 (afterRead b s))))
  ∧ (∀ (ch : BitVec 8) (kind : Option Nat) (s : State),
    let c := chanAt s ch
    let e := c.ent
    let legal := chKind e ≠ 0 ∧ malformedChan s e = false ∧ (kind = none ∨ kind = some (chKind e))
    let mine := isMember s (chGid e) = true ∧ s.c.id.gids.contains (chGid e) = true ∧ ownedElsewhere s c = false
    (¬ (legal ∧ mine ∧ c.fault = false) → chanCheck kind ch s = .error (.trap .channel none))
    ∧ (legal → mine → c.fault = false → s.pkg.aborted.contains (chGid e) = true →
      chanCheck kind ch s = .error (.trap .groupAbort none))
    ∧ (legal → mine → c.fault = false → s.pkg.aborted.contains (chGid e) = false →
      chanCheck kind ch s = if slotsPlain s e then .ok c else .error (.trap .bounds none)))
  ∧ (∀ (ch : BitVec 8) (ev : ChEvent) (op : W32) (s : State),
    let off := chEv (chanAt s ch).ent + 4 * match ev with | .sr => 0 | .lr => 1 | .af => 2
    waitDone s (.chWait ch ev op) = !(BitVec.ofNat 32 (getNum s.core.as off 4) - op).msb)
  ∧ (∀ (p : CollPkt) (s : State),
    let c := chanAt s p.chan
    (chKind c.ent = 0 ∨ c.fault = true → exec (.collPacketReceipt p) s = .next s)
    ∧ (chKind c.ent ≠ 0 → c.fault = false →
      let differs := p.head.any (fun h => h ≠ headOf s c.ent)
      (differs = true → ∃ t, exec (.collPacketReceipt p) s = .next t ∧ (chanAt t p.chan).fault = true ∧ t.c.a = s.c.a
        ∧ t.core.as = s.core.as ∧ t.pkg.mem = s.pkg.mem)
      ∧ (differs = false → ownerHere s c = false → chKind c.ent ≠ 1 → exec (.collPacketReceipt p) s = .next (meetPacket p s))
      ∧ (differs = false → ownerHere s c = false → chKind c.ent = 1 → exec (.collPacketReceipt p) s
        = .next (s.withPkg { s.pkg with chans := put s.pkg.chans p.chan.toNat { c with early := c.early ++ [p] } }))
      ∧ (differs = false → ownerHere s c = true → ∃ t, exec (.collPacketReceipt p) s = .next t ∧ t.c.a = s.c.a
        ∧ t.pkg.mem = s.pkg.mem ∧ t.core.cb = s.core.cb ∧ (chanAt t p.chan).issued = c.issued)))
  ∧ (∀ (ch : BitVec 8) (s : State),
    let c := chanAt s ch
    (ownerHere s c = false ∨ c.fault = true ∨ c.issued ≤ c.sr → exec (.sourceReadComplete ch) s = .next s)
    ∧ (ownerHere s c = true → c.fault = false → c.sr < c.issued → ∃ t, exec (.sourceReadComplete ch) s = .next t
      ∧ (chanAt t ch).sr = c.sr + 1 ∧ t.c.a = s.c.a ∧ t.pkg.mem = s.pkg.mem))
  ∧ ∀ (e x y z : List Byte), chKind e = 2 → chArrival e = false →
    combineUp e [(1, y), (2, z), (0, x)] = combineBytes e (combineBytes e x y) z

/-! ## Attention (13) -/

/-- The packets of the ordered path to a node, in the order of their sequence numbers: those not acknowledged yet, then those that
wait for room (R303). -/
def pathPackets (s : State) (n : BitVec 12) : List Packet :=
  (pathTo s.pkg.fab n).unacked.map Prod.fst ++ (pathTo s.pkg.fab n).wait

/-- From s to t, packets of the attention unit that hold some bytes have joined the ordered path to a node (R349; their layout is
log 24's). -/
def attnSent (s t : State) (n : BitVec 12) (what : Nat) (data : List Byte) : Prop :=
  ∃ new, pathPackets t n = pathPackets s n ++ new ∧ new.flatMap (fun p => p.data) = data
    ∧ ∀ p ∈ new, p.kind = 14 ∧ p.dst = n ∧ p.aux = BitVec.ofNat 64 what

/-- A result record of R352 at a place of AS: STATUS and what a reply gives. -/
def recordIs (s : State) (base : Nat) (a : Ask) (status : Nat) (r : HolderReply) : Prop :=
  let word (i n : Nat) : Nat := getNum s.core.as (base + i) n
  word 0 4 = status ∧ word 4 4 = r.part.m.toNat ∧ word 8 4 = r.part.l.toNat ∧ word 12 4 = r.part.count % 2 ^ 32
    ∧ word 16 4 = r.misses.length % 2 ^ 32 ∧ word 20 2 = a.gen.toNat
    ∧ (∀ i, 22 ≤ i → i < 64 → getByte s.core.as (base + i) = 0)
    ∧ (r.part.o.length = a.dh →
      (∀ d x, r.part.o[d]? = some x → word (64 + 4 * d) 4 = x.toNat)
      ∧ ∀ i m, i < a.maxMiss → r.misses[i]? = some m →
        word (64 + 4 * a.dh + 8 * i) 4 = m.unit % 2 ^ 32 ∧ word (68 + 4 * a.dh + 8 * i) 2 = m.pri.toNat)

/-- R345 to R349, R352, R359, R438: at.q with a legal record asks every holder under the entry's generation, this package itself
through its own queue and another by packets of the ordered path (log 24); a holder answers under the same generation only, with the
misses of its units of the pool tier (log 49), and another tells STALE, an empty partial of its own in the tree; a child's partial
that comes before the query is kept for it; what comes first, the partial of the root or a STALE report, completes the query, and a
timeout without either fails it: the record holds the result, or an empty one, and the context of a failed query traps late, a
switched-out one when it resumes.
Choices of the model it rests on: log 12 (a TRADDR that no rule states is free); log 24 (the layout of collective and
attention packets); log 48 (results whose owner has ended); log 49 (every far unit is listed); log 50 (reserved bytes of
attention records); log 108 (what ACC reads). -/
def Obligations.QueryResults : Prop :=
  (∀ (g : Fin 16) (arr rel acc : Bool) (a b : Src) (s : State), guardOn g s = true → canRead2 a b s = true →
    let x := (valueOf a s).toNat
    let y := (valueB a b s).toNat
    let u := after2 a b s
    (x % 256 ≠ 0 → Traps (.atQ g arr rel acc a b) .misalign s)
    ∧ (x % 256 = 0 → regionAt s.c.regions false x 64 = none → Traps (.atQ g arr rel acc a b) .bounds s)
    ∧ (∀ hd, record 256 x 64 u = .ok hd →
      let seqid := BitVec.ofNat 32 (entNum hd 0 4)
      (y % 256 ≠ 0 → Traps (.atQ g arr rel acc a b) .misalign s)
      ∧ (y % 256 = 0 → seqOf s seqid = none → (regionAt s.c.regions false y 64).isSome = true →
        Traps (.atQ g arr rel acc a b) .pmt s)
      ∧ (y % 256 = 0 → ∀ e body, seqOf s seqid = some e →
        record 256 x (64 + 4 * e.dh + 4 * (if entNum hd 22 1 = 1 then entNum hd 24 2 else 0)) u = .ok body →
        (regionAt s.c.regions false y (64 + 4 * e.dh + 8 * entNum hd 20 2)).isSome = true →
        (queryLegal e hd = false → Traps (.atQ g arr rel acc a b) .pmt s)
        ∧ (queryLegal e hd = true → engineReady (taint2 a b s || predTaint s.c (guardReg g)) u = .ok () →
          (rel = true → mayRelease 3 s.c.gc (atStart u) = true) → ∃ t ask, exec (.atQ g arr rel acc a b) s = .next t
            ∧ t.c = { s.c with emitted := true, engCount := s.c.engCount + 1 } ∧ t.pkg.mem = s.pkg.mem ∧ t.core.as = s.core.as
            ∧ t.core.cb = s.core.cb
            ∧ t.pkg.attn.asks = s.pkg.attn.asks ++ [ask] ∧ ask.qid = s.pkg.attn.next ∧ ask.recOff = x ∧ ask.resOff = y
            ∧ ask.gen = e.gen ∧ ask.acc = acc ∧ ask.own = ownerOf u ∧ ask.no = s.c.engCount ∧ ask.got = none ∧ ask.stale = false
            ∧ (e.holders.Nodup → t.pkg.attn.queue = s.pkg.attn.queue
                ++ (if e.holders.contains s.pkg.nodeid then [.query (queryOf s e s.pkg.attn.next arr body)] else [])
              ∧ ∀ n ∈ e.holders, n ≠ s.pkg.nodeid → attnSent s t n 0 (queryBytes (queryOf s e s.pkg.attn.next arr body)))))))
  ∧ (∀ (q : Query) (s : State), gathers s q.seqid = false → q.from_ ≠ s.pkg.nodeid → s.pkg.attn.folds = [] →
    let at_ : Fold := ⟨q, q.arr, (findIdx (fun n => n = s.pkg.nodeid) q.holders).getD 0, q.holders, []⟩
    let kept (l : List (Nat × BitVec 12 × Nat × HolderReply)) : State :=
      s.withPkg { s.pkg with attn := { s.pkg.attn with early := l } }
    (s.pkg.attn.early = [] → openFold q s = (at_, s))
    ∧ (∀ rank r i, s.pkg.attn.early = [(q.qid, q.from_, rank, r)] → childOf at_ rank = some i →
      openFold q s = ({ at_ with vals := [(i, r)] }, kept []))
    ∧ ∀ f s', openFold q s = (f, s') →
      (∀ e, seqOf s q.seqid = some e → e.gen = q.gen →
        exec (.queryAtHolder q) s = .next (joinFold q f 1 (holderAnswer s q e) s'))
      ∧ ((∀ e, seqOf s q.seqid = some e → e.gen ≠ q.gen) → exec (.queryAtHolder q) s
        = .next (joinFold q f 1 ⟨emptyPartial q.q.length, [], true⟩ (sendAttn Owner.none q.from_ 2 (bytesOf 4 q.qid) s'))))
  ∧ (∀ (q : Query) (s : State), gathers s q.seqid = true → q.from_ ≠ s.pkg.nodeid →
    exec (.queryAtHolder q) s = .next (s.withPkg { s.pkg with attn := { s.pkg.attn with heldq := s.pkg.attn.heldq ++ [.query q] } }))
  ∧ (∀ (qid : Nat) (from_ : BitVec 12) (rank : Nat) (r : HolderReply) (s : State), s.pkg.attn.folds = [] →
    let root := s.pkg.attn.asks.any (fun a => a.qid = qid && a.root = rank)
    (from_ ≠ s.pkg.nodeid ∨ root = false → exec (.partialMerge ⟨from_, qid⟩ rank r) s = .next (s.withPkg { s.pkg with attn := {
      s.pkg.attn with early := s.pkg.attn.early ++ [(qid, from_, rank, r)] } }))
    ∧ (root = true → exec (.partialMerge ⟨s.pkg.nodeid, qid⟩ rank r) s = .next (s.withPkg { s.pkg with attn := { s.pkg.attn with
      asks := s.pkg.attn.asks.map (fun a => if a.qid = qid ∧ a.got = none ∧ a.stale = false then { a with got := some r } else a) } })))
  ∧ (∀ (qid : Nat) (s : State),
    let found := s.pkg.attn.asks.find? (fun a => a.qid = qid)
    (found = none → exec (.resultRecordWrite qid) s = .next s ∧ exec (.staleReport qid) s = .next s)
    ∧ ∀ a, found = some a →
      let range := regionAt s.c.regions false a.resOff (64 + 4 * a.dh + 8 * a.maxMiss)
      let fails (i : Instr) (cause : Cause) (status : Nat) : Prop := ∃ t, exec i s = .next t ∧ t.c.a = s.c.a ∧ t.pkg.mem = s.pkg.mem
        ∧ t.pkg.attn.asks = s.pkg.attn.asks.filter (fun y => y.qid ≠ qid)
        ∧ t.c.late = s.c.late ++ [⟨cause, BitVec.ofNat 64 a.recOff, false⟩]
        ∧ ∀ g, range = some g → a.acc = false → Memory.wf s.core.as = true →
          recordIs t (g.phys true a.resOff) a status ⟨emptyPartial a.dh, [], false⟩
      (s.c.live = true → s.c.id.ctxid = a.own.ctxid →
        (a.got = none → a.stale = false → exec (.resultRecordWrite qid) s = .next s)
        ∧ (a.got = none → fails (.staleReport qid) .staleGeneration 3)
        ∧ (a.got = none → a.stale = true → fails (.resultRecordWrite qid) .staleGeneration 3)
        ∧ (∀ r, a.got = some r → ∃ t, exec (.resultRecordWrite qid) s = .next t ∧ t.c.a = s.c.a ∧ t.pkg.mem = s.pkg.mem
          ∧ t.pkg.attn.asks = s.pkg.attn.asks.filter (fun y => y.qid ≠ qid)
          ∧ (r.stale = false → t.c.late = s.c.late
            ∧ ∀ g, range = some g → a.acc = false → Memory.wf s.core.as = true → recordIs t (g.phys true a.resOff) a
              (1 + (if 0 < r.misses.length then 8 else 0) + (if a.maxMiss < r.misses.length then 16 else 0)
                + (if (val32 r.part.m.toNat).isNan then 32 else 0)) r))
        ∧ (∀ r, a.got = some r → r.stale = false → ∃ t, exec (.staleReport qid) s = .next t ∧ t.c.late = s.c.late
          ∧ t.pkg.attn.asks = s.pkg.attn.asks.filter (fun y => y.qid ≠ qid))
        ∧ (a.got = none → a.stale = false → tmoNs s.pkg.fab ≤ age s a.since → s.pkg.attn.apps = [] → s.pkg.attn.pmts = [] →
          s.pkg.attn.rebals = [] → fails (.attentionTimeout qid) .nodeUnreachable 5))
      ∧ ((s.c.live = true → s.c.id.ctxid ≠ a.own.ctxid) → (s.c2.live = true → s.c2.id.ctxid ≠ a.own.ctxid) →
        exec (.resultRecordWrite qid) s = .next s
        ∧ exec (.staleReport qid) s = .next (s.withPkg { s.pkg with attn := { s.pkg.attn with
          asks := s.pkg.attn.asks.map (fun a => if a.qid = qid then { a with stale := a.got.isNone } else a) } })))
  ∧ ∀ (q : Query) (s : State) (e : SeqEntry) (x : UnitEnt),
    (coveredTokens q e x = [] → unitPartial s q e x = emptyPartial e.dh)
    ∧ (x ∈ s.pkg.attn.units → x.seqid = q.seqid → x.state = .paging ∨ (x.state = .valid ∧ x.tier1 = true) →
      ⟨x.unit, x.pri⟩ ∈ (holderAnswer s q e).misses)

/-- R349, R360: what kv.app sends to the holders of its unit, and its traps. -/
def kvAppSends : Prop :=
  ∀ (g : Fin 16) (cw rel : Bool) (a b : Src) (s : State), guardOn g s = true →
    (if cw then canRead2 a b s else canRead a s) = true →
    let x := (valueOf a s).toNat
    let y := if cw then (valueB a b s).toNat else 0
    let u := if cw then after2 a b s else afterRead a s
    let taint := if cw then taint2 a b s else taintOf a s
    ∀ hd e body, record 256 x 64 u = .ok hd → (cw = true → wordAt y u = .ok ()) →
      seqOf s (BitVec.ofNat 32 (entNum hd 0 4)) = some e →
      let pos := entNum hd 4 4
      let n := entNum hd 10 2 * e.nh * 2 * e.dh * seqEsz e
      (e.nl < entNum hd 8 2 + entNum hd 10 2 → Traps (.kvApp g cw rel a b) .pmt s)
      ∧ (entNum hd 8 2 + entNum hd 10 2 ≤ e.nl → record 256 x (64 + n) u = .ok body → posLegal e pos = true →
        (pos / unitTokens e < e.tailu → Traps (.kvApp g cw rel a b) .kvPos s)
        ∧ (e.tailu ≤ pos / unitTokens e → engineReady (taint || predTaint s.c (guardReg g)) u = .ok () →
          (rel = true → mayRelease 3 s.c.gc (atStart u) = true) → ∃ t op, exec (.kvApp g cw rel a b) s = .next t
            ∧ t.c = { s.c with emitted := true, engCount := s.c.engCount + 1 } ∧ t.pkg.mem = s.pkg.mem ∧ t.core.as = s.core.as
            ∧ t.core.cb = s.core.cb
            ∧ t.pkg.attn.apps = s.pkg.attn.apps ++ [op] ∧ op.aid = s.pkg.attn.next ∧ op.recOff = x ∧ op.no = s.c.engCount
            ∧ op.cw = (if cw then some y else none)
            ∧ ∀ pri mir, holdersOf e (pos / unitTokens e) = (pri, mir) → mir ≠ some pri →
              let app (p : Bool) : Append := ⟨s.pkg.attn.next, s.pkg.nodeid, e.seqid, pos, entNum hd 8 2, entNum hd 10 2, e.gen, p, body.drop 64⟩
              op.here = decide (s.pkg.nodeid = pri ∨ mir = some s.pkg.nodeid)
              ∧ op.away = decide (s.pkg.nodeid ≠ pri ∨ (mir.isSome = true ∧ mir ≠ some s.pkg.nodeid))
              ∧ t.pkg.attn.queue = s.pkg.attn.queue ++ (if s.pkg.nodeid = pri then [.append (app true)] else [])
                ++ (if mir = some s.pkg.nodeid then [.append (app false)] else [])
              ∧ (s.pkg.nodeid ≠ pri → attnSent s t pri 5 (appendBytes (app true)))
              ∧ ∀ m, mir = some m → m ≠ s.pkg.nodeid → attnSent s t m 5 (appendBytes (app false))))

/-- R344, R349: an append of another package at this holder. -/
def appendLands : Prop :=
  ∀ (r : Append) (s : State), gathers s r.seqid = false → r.from_ ≠ s.pkg.nodeid →
    let rejected := ∃ n, exec (.appendAtHolder r) s = .next n ∧ n.pkg.attn = s.pkg.attn ∧ n.pkg.mem = s.pkg.mem ∧ n.c = s.c
    (seqOf s r.seqid = none → rejected)
    ∧ ∀ e, seqOf s r.seqid = some e →
      let at_ := r.pos % unitTokens e
      (e.gen ≠ r.gen → rejected)
      ∧ (e.gen = r.gen →
        (unitOf_ s r.seqid (r.pos / unitTokens e) = none → at_ ≠ 0 → rejected)
        ∧ ∀ x, unitOf_ s r.seqid (r.pos / unitTokens e) = some x →
          (x.state = .paging ∨ x.state = .copying → exec (.appendAtHolder r) s = .next (setUnit { x with held := x.held ++ [r] } s))
          ∧ (x.state = .valid ∨ x.state = .mirror → x.tier1 = true ∨ x.fill < at_ → rejected)
          ∧ (x.state = .valid ∨ x.state = .mirror → x.tier1 = false → at_ ≤ x.fill → ∃ n,
            exec (.appendAtHolder r) s = .next n ∧ n.c = s.c ∧ n.pkg.mem = putCells s.pkg.mem (appendCells e x.frame at_ r)
            ∧ unitOf_ n r.seqid (r.pos / unitTokens e) = some { x with fill := max x.fill (at_ + 1), gen := e.gen }))

/-- R360: an append of this package that a holder rejects. -/
def appendFails : Prop :=
  ∀ (aid : Nat) (s : State) (a : AppOp), s.pkg.attn.apps.find? (fun a => a.aid = aid) = some a → s.c.live = true →
    s.c.id.ctxid = a.own.ctxid → s.pkg.attn.pmts.find? (fun p => p.n = aid) = none → ∀ c, ∃ t, exec (.appendComplete aid (some c)) s = .next t ∧ t.c.a = s.c.a
      ∧ t.c.late = s.c.late ++ [⟨c, BitVec.ofNat 64 a.recOff, false⟩]
      ∧ t.pkg.attn.apps = s.pkg.attn.apps.filter (fun x => x.aid ≠ aid)

/-- R360: an append of this package that the other holders have performed. -/
def appendCompletes : Prop :=
  ∀ (aid : Nat) (s : State) (a : AppOp), s.pkg.attn.apps = [a] → a.aid = aid →
    (a.here = true → exec (.appendComplete aid none) s = .next (s.withPkg { s.pkg with attn := { s.pkg.attn with
      apps := [{ a with away := false }] } }))
    ∧ (a.here = false → a.cw = none →
      exec (.appendComplete aid none) s = .next (s.withPkg { s.pkg with attn := { s.pkg.attn with apps := [] } }))

/-- R361: pm.rd. -/
def mapIsRead : Prop :=
  ∀ (g : Fin 16) (a b : Src) (s : State), guardOn g s = true → canRead2 a b s = true →
    let x := valueOf a s
    let y := (valueB a b s).toNat
    let u := after2 a b s
    (y % 64 ≠ 0 → Traps (.pmRd g a b) .misalign s)
    ∧ (y % 64 = 0 → regionAt s.c.regions false y 64 = none → Traps (.pmRd g a b) .bounds s)
    ∧ (y % 64 = 0 → ∀ r, regionAt s.c.regions false y 64 = some r →
      ((x.extractLsb' 32 2).toNat = 3 → Traps (.pmRd g a b) .pmt s)
      ∧ ((x.extractLsb' 32 2).toNat ≠ 3 →
        exec (.pmRd g a b) s = .next (sched (.buf false (cellsAt (r.phys true y) (pmImage s x))) 1 u)))

/-- R349, R350, R437: pm.wr and pm.rebal come after the requests that this package sent itself; they wait for a rebalance of the
sequence that gathered before their group, and are held by one of the group itself (log 51); a pm.rebal behind another of its group fails late (log 52). -/
def mapFollows : Prop :=
  ∀ (id : W32) (s : State),
    (gathers (atStart s) id = true → attnIdle id s = waitRoom)
    ∧ (s.pkg.attn.queue = [] → gathers (atStart s) id = false → attnIdle id s = .ok (gathers s id, s))

/-- R362: pm.wr for a sequence and for a unit, in the machine v that holds no own request any more. -/
def mapIsWritten : Prop :=
  ∀ (g : Fin 16) (a : Src) (s : State), guardOn g s = true → canRead a s = true →
    let u := afterRead a s
    ∀ b held v, record 64 (valueOf a s).toNat 64 u = .ok b → attnIdle (BitVec.ofNat 32 (entNum b 0 4)) u = .ok (held, v) →
      let id := BitVec.ofNat 32 (entNum b 0 4)
      let valid := (entNum b 6 2).testBit 0
      (valid = true → seqOfImage b = none ∨ (seqOf v id).isSome = true → Traps (.pmWrSeq g a) .pmt s)
      ∧ (valid = true → seqOf v id = none → ∀ e n va l v', seqOfImage b = some (e, n, va) → va < 2 ^ 48 →
        listBytes (BitVec.ofNat 64 va) (2 * n) v = .ok (l, v') →
        let nodes := piecesOf 2 l
        let made : SeqEntry := { e with holders := nodes.map (BitVec.ofNat 12) }
        distinct nodes = true → nodes.all (fun x => (seqMembers v' e.group).any (fun m => m.toNat = x)) = true →
        (v.pkg.attn.seqs.map (fun x => x.2.holders.length)).sum + n ≤ 65536 →
        (held = false → 512 ≤ v.pkg.attn.seqs.length → Traps (.pmWrSeq g a) .kvFull s)
        ∧ (held = true ∨ v.pkg.attn.seqs.length < 512 → ∃ t, exec (.pmWrSeq g a) s = .next t
          ∧ t.c.a = v.c.a ∧ t.c.waits = v.c.waits ++ [.pmt v.pkg.attn.next] ∧ t.c.emitted = true ∧ t.pkg.mem = v.pkg.mem
          ∧ (held = false → seqOf t id = some made ∧ t.pkg.attn.heldq = v.pkg.attn.heldq)
          ∧ (held = true → t.pkg.attn.seqs = v.pkg.attn.seqs
            ∧ t.pkg.attn.heldq = v.pkg.attn.heldq ++ [.write made false v.pkg.nodeid v.pkg.attn.next])
          ∧ ∀ n ∈ seqMembers v e.group, n ≠ v.pkg.nodeid → attnSent v t n 6 (writeBytes v.pkg.attn.next made false b)))
      ∧ (valid = false → seqOf v id = none → Traps (.pmWrSeq g a) .pmt s)
      ∧ (valid = false → ∀ e, seqOf v id = some e →
        (prefixHolds v id 0 (2 ^ 64) = true → Traps (.pmWrSeq g a) .pmt s)
        ∧ (prefixHolds v id 0 (2 ^ 64) = false → ∃ t, exec (.pmWrSeq g a) s = .next t ∧ t.c.a = v.c.a ∧ t.pkg.mem = v.pkg.mem
          ∧ (held = false → e.seqid = id → seqOf t id = none)
          ∧ (held = true → t.pkg.attn.seqs = v.pkg.attn.seqs
            ∧ t.pkg.attn.heldq = v.pkg.attn.heldq ++ [.write e true v.pkg.nodeid v.pkg.attn.next])))
      ∧ (let w := entNum b 4 4
        let va := BitVec.ofNat 64 (entNum b 8 8)
        (seqOf v id = none ∨ unitOf_ v id w = none → Traps (.pmWrUnit g a) .pmt s)
        ∧ ∀ e x pte log v', seqOf v id = some e → unitOf_ v id w = some x →
          let off := va.toNat % 2 ^ 48
          x.state = .valid → x.tier1 = false → entNum b 0x13 1 = 1 → spaceOf va = 2 → nodeOf va = 0 →
          prefixHolds v id (w * unitTokens e) (w * unitTokens e + unitTokens e) = false →
          Sys2Proof.Machine.translate 2 .read va v = .ok (pte, log, v') → permits .read v'.c.id.sup pte = true →
          (2 ^ log < off % 2 ^ log + rangeBytes e → Traps (.pmWrUnit g a) .pmt s)
          ∧ (off % 2 ^ log + rangeBytes e ≤ 2 ^ log → ∃ t, exec (.pmWrUnit g a) s = .next t ∧ t.c.a = v.c.a
            ∧ t.pkg.mem = v.pkg.mem ∧ t.core.as = v.core.as
            ∧ (held = false → unitOf_ t id w
              = some { x with tier1 := true, frame := va.toNat, poolPa := leafPa pte log off, gen := e.gen })
            ∧ (held = true → unitOf_ t id w = some x ∧ t.pkg.attn.heldq
              = v'.pkg.attn.heldq ++ [.tierOut id w va.toNat (leafPa pte log off) v'.pkg.attn.next])))

/-- R363: pm.rebal, in the machine v that holds no own request any more. -/
def rebalanceStarts : Prop :=
  ∀ (g : Fin 16) (cw : Bool) (a b : Src) (s : State), guardOn g s = true → canRead2 a b s = true →
    let id : W32 := (valueOf a s).extractLsb' 0 32
    let gen : W16 := (valueOf a s).extractLsb' 32 16
    let lost : BitVec 12 := (valueB a b s).extractLsb' 0 12
    let off := ((valueB a b s).extractLsb' 16 22).toNat
    let u := after2 a b s
    (cw = true → wordAt off u = .ok ()) →
      (seqOf s id = none → Traps (.pmRebal g cw a b) .pmt s)
      ∧ ∀ e, seqOf s id = some e →
        (e.holders.contains lost = false ∨ e.holders.length = 1 → Traps (.pmRebal g cw a b) .pmt s)
        ∧ (e.holders.contains lost = true → e.holders.length ≠ 1 →
          (e.gen ≠ gen → Traps (.pmRebal g cw a b) .staleGeneration s)
          ∧ (e.gen = gen → engineReady (taint2 a b s || predTaint s.c (guardReg g)) u = .ok () →
            (∀ v, attnIdle id u = .ok (true, v) →
              exec (.pmRebal g cw a b) s = .next (attnFails (ownerOf v) .staleGeneration 0 (emit v)))
            ∧ ∀ v, attnIdle id u = .ok (false, v) → (seqOf v id).isSome = true → (∀ o ∈ v.pkg.attn.rebals, o.n ≠ v.pkg.attn.next) →
            ∃ t op, exec (.pmRebal g cw a b) s = .next t ∧ t.c = { v.c with emitted := true, engCount := v.c.engCount + 1 }
              ∧ t.pkg.mem = v.pkg.mem ∧ t.pkg.attn.rebals = v.pkg.attn.rebals ++ [op] ∧ op.seqid = id ∧ op.lost = lost
              ∧ op.gen = gen ∧ op.cw = (if cw then some off else none) ∧ op.no = v.c.engCount
              ∧ op.others = ((seqMembers v e.group).filter (fun n => !fromHere v n && n ≠ lost)).eraseDups ∧ op.left = op.others
              ∧ op.best = ownBest v id lost ∧ op.sent = op.others.isEmpty
              ∧ t.pkg.attn.gathering = v.pkg.attn.gathering ++ [(id, v.pkg.nodeid)]
              ∧ ∀ n ∈ op.others, attnSent v t n 7 (askBytes (.ask id gen v.pkg.nodeid lost))))

/-- R344, R350, R363: rebalancing at a member, writes of other members, and a new mirror. -/
def rebalanceEvents : Prop :=
  ∀ (s : State),
    (∀ id gen from_ lost, rebalOf s id = none →
      let told (s : State) (what : Nat) (r : RebalAsk) : State := sendAttn Owner.none from_ what (askBytes r) s
      ((∀ e, seqOf s id = some e → e.gen ≠ gen) →
        exec (.rebalanceQuery (.ask id gen from_ lost)) s = .next (told s 12 (.stale id s.pkg.nodeid)))
      ∧ (∀ e, seqOf s id = some e → e.gen = gen → exec (.rebalanceQuery (.ask id gen from_ lost)) s
        = .next (told (s.withPkg { s.pkg with attn := { s.pkg.attn with
            gathering := s.pkg.attn.gathering.filter (fun x => x ≠ (id, from_)) ++ [(id, from_)] } })
          10 (.answer id s.pkg.nodeid (ownBest s id lost)))))
    ∧ (∀ id from_ b, (rebalOf s id = none → exec (.rebalanceQuery (.answer id from_ b)) s = .next s)
      ∧ ∀ o, rebalOf s id = some o →
        (o.left.contains from_ = false → exec (.rebalanceQuery (.answer id from_ b)) s = .next s)
        ∧ (o.left.contains from_ = true → o.sent = false → (seqOf s id).isSome = true →
          ∃ t o', exec (.rebalanceQuery (.answer id from_ b)) s = .next t ∧ t.c = s.c ∧ t.pkg.mem = s.pkg.mem
            ∧ rebalOf t id = some o' ∧ o'.left = o.left.filter (fun n => n ≠ from_) ∧ o'.sent = o'.left.isEmpty))
    ∧ (∀ (r : RebalStep) e, seqOf s r.seqid = some e → e.seqid = r.seqid → s.pkg.attn.heldq = [] →
      let applied (t : State) : Prop := ∃ e', seqOf t r.seqid = some e' ∧ e'.gen = e.gen + 1
        ∧ e'.holders = e.holders.filter (fun n => n ≠ r.lost) ∧ e'.tailu = (r.tail.map (·.1)).getD 0
      (r.from_ ≠ s.pkg.nodeid →
        (e.gen ≠ r.gen → exec (.rebalanceApply r) s
          = .next (sendAttn Owner.none r.from_ 12 (askBytes (.stale r.seqid s.pkg.nodeid)) s))
        ∧ (e.gen = r.gen → ∃ t, exec (.rebalanceApply r) s = .next t ∧ t.c.a = s.c.a ∧ applied t
          ∧ t.pkg.attn.gathering = s.pkg.attn.gathering.filter (fun x => x.1 ≠ r.seqid)))
      ∧ (r.from_ = s.pkg.nodeid → (rebalOf s r.seqid = none → exec (.rebalanceApply r) s = .next s)
        ∧ ∀ o, rebalOf s r.seqid = some o →
          (o.sent = false ∨ o.path.any (unacked s) = true → exec (.rebalanceApply r) s = .next s)
          ∧ (o.sent = true → o.path.any (unacked s) = false → e.gen = o.gen → o.lost = r.lost →
            r.tail = tailOf e o.lost o.best → ∃ t, exec (.rebalanceApply r) s = .next t ∧ t.c.a = s.c.a ∧ applied t)))
    ∧ (∀ id, rebalOf s id = none → ∀ why, exec (.rebalanceComplete id why) s = .next s)
    ∧ (∀ id o, rebalOf s id = some o →
      (o.sent = false ∨ rebalApplied s o = false → exec (.rebalanceComplete id none) s = .next s)
      ∧ (o.sent = true → rebalApplied s o = true → o.cw = none → exec (.rebalanceComplete id none) s
        = .next (s.withPkg { s.pkg with attn := { s.pkg.attn with rebals := s.pkg.attn.rebals.filter (fun x => x ≠ o) } }))
      ∧ (s.c.live = true → s.c.id.ctxid = o.own.ctxid → s.pkg.attn.heldq = [] → ∀ c,
        ∃ t, exec (.rebalanceComplete id (some c)) s = .next t ∧ t.c.a = s.c.a ∧ t.c.late = s.c.late ++ [⟨c, 0, false⟩]))
    ∧ (∀ e from_ n, gathers s e.seqid = false →
      ((seqOf s e.seqid).isSome = true ∨ seqRoom s e.holders.length = true → exec (.pmtWriteAtMember e ⟨false, from_, n⟩) s
        = .next (s.withPkg { s.pkg with attn := { s.pkg.attn with seqs := put s.pkg.attn.seqs e.seqid.toNat e } }))
      ∧ (seqOf s e.seqid = none → seqRoom s e.holders.length = false → exec (.pmtWriteAtMember e ⟨false, from_, n⟩) s
        = .next (sendAttn Owner.none from_ 4 (rejectBytes n .kvFull) s)))
    ∧ ∀ id w d e x, seqOf s id = some e → unitOf_ s id w = some x →
      (x.state ≠ .copying → exec (.unitCopyComplete id w d) s = .next s)
      ∧ (x.state = .copying → x.held = [] → exec (.unitCopyComplete id w d) s
        = .next (setUnit { x with state := .mirror, frame := x.fresh, fresh := 0, held := [], gen := e.gen }
          (writeMem (cellsAt x.fresh (d.take (rangeBytes e))) s)))

/-- R343, R344, R349, R350, R357, R360 to R363: kv.app sends an append to the unit's holders; at a holder it stores the rows
and raises FILL, or is rejected under another generation or beyond FILL; the position map is read by pm.rd, written by pm.wr
and rebalanced by pm.rebal, each with its traps.
Choices of the model it rests on: log 9 (the frame of the allocator is opaque); log 12 (a TRADDR that no rule states is
free); log 24 (the layout of collective and attention packets); log 50 (reserved bytes of attention records); log 51
(pm.wr waits); log 52 (concurrent rebalances); log 93 (words of an owner that is away). -/
def Obligations.PositionMapResults : Prop :=
  kvAppSends ∧ appendLands ∧ appendFails ∧ appendCompletes ∧ mapIsRead ∧ mapFollows ∧ mapIsWritten ∧ rebalanceStarts ∧ rebalanceEvents

/-- R344, R346, R351, R354 to R356, R364 to R369: px.hash chains a block; px.look, px.pin and px.unpin act on the longest
match; px.ins adds an entry or finds it; tier.in brings a unit of the pool tier into HBM, with its bytes; vsmrg merges the
partials of two register groups.
Choices of the model it rests on: log 9 (the frame of the allocator is opaque); log 12 (a TRADDR that no rule states is
free); log 52 (concurrent rebalances); log 53 (partials of unequal width); log 93 (words of an owner that is away); log
107 (poisoned bytes of typed buffers). -/
def Obligations.PrefixAndTierResults : Prop :=
  (∀ (g : Fin 16) (d : Reg) (b : Src) (s : State), guardOn g s = true → canRead b s = true → awaits (atStart s).c (.reg d) = false →
    let y := (valueOf b s).toNat
    let u := afterRead b s
    let t := taintOf b s || predTaint s.c (guardReg g)
    let emitted (px : Table PxEnt) (stamp : Nat) : State :=
      emit (u.withPkg { u.pkg with attn := { u.pkg.attn with px := px, stamp := stamp } })
    (∀ l, record 64 y 64 u = .ok l → exec (.pxHash g d b) s
      = .next (sched (.s d (hashBlock s.c.a.s[d] ((piecesOf 4 l).map (BitVec.ofNat 32)))
        (s.c.a.sTaint.getLsbD d || taintOf b s || predTaint s.c (guardReg g))) 4 u))
    ∧ (y % 64 ≠ 0 → Traps (.pxHash g d b) .misalign s)
    ∧ (∀ l, hashList y u = .ok l →
      (∃ px n, exec (.pxLook g d b) s = .next (sched (.s d (matchValue (matchFrom s.pkg.attn.px (fun _ => false) none 0 l)) t) 1
          (emitted px n))
        ∧ ((s.pkg.attn.px.map Prod.fst).Nodup → ∀ i, (look px i).map (fun e => (e.key, e.depth, e.seqid, e.ref)) = (look s.pkg.attn.px i).map (fun e => (e.key, e.depth, e.seqid, e.ref))))
      ∧ ∃ px n, exec (.pxPin g d b) s
          = .next (sched (.s d (matchValue (matchFrom s.pkg.attn.px (fun e => e.ref = 65535) none 0 l)) t) 1 (emitted px n)))
    ∧ (∀ r, record 16 y 16 u = .ok r →
      let id := BitVec.ofNat 32 (entNum r 8 4)
      let key := entNum r 0 8
      let depth := entNum r 12 2
      (seqOf s id = none → Traps (.pxIns g d b) .pmt s)
      ∧ ((seqOf s id).isSome = true →
        (∀ i e, pxFind s.pkg.attn.px key depth = some (i, e) → exec (.pxIns g d b) s
          = .next (sched (.s d (BitVec.ofNat 64 i) t) 1
            (emitted (put s.pkg.attn.px i { e with stamp := s.pkg.attn.stamp + 1 }) (s.pkg.attn.stamp + 1))))
        ∧ (pxFind s.pkg.attn.px key depth = none →
          (∀ i, pxVictim s.pkg.attn.px = some i → exec (.pxIns g d b) s = .next (sched (.s d (BitVec.ofNat 64 (i + 256)) t) 1
            (emitted (put s.pkg.attn.px i ⟨BitVec.ofNat 64 key, depth, id, 0, s.pkg.attn.stamp + 1⟩) (s.pkg.attn.stamp + 1))))
          ∧ (pxVictim s.pkg.attn.px = none → exec (.pxIns g d b) s
            = .next (sched (.s d (BitVec.allOnes 64) t) 1 (emit u)))))))
  ∧ (∀ (g : Fin 16) (a b : Src) (s : State), guardOn g s = true → canRead2 a b s = true →
    let n := (valueB a b s).toNat
    let u := after2 a b s
    (64 < n → Traps (.pxUnpin g a b) .pmt s)
    ∧ (n ≤ 64 → ∀ l, hashList (valueOf a s).toNat u = .ok l →
      let m := (matchFrom s.pkg.attn.px (fun _ => false) none 0 l).take n
      exec (.pxUnpin g a b) s = .next (emit (u.withPkg { u.pkg with attn := { u.pkg.attn with
        px := m.foldl (fun t e => put t e.1 { e.2 with ref := e.2.ref - 1 }) s.pkg.attn.px } }))))
  ∧ (∀ (x : W64) (t : List W32),
    let lo := (x.extractLsb' 0 32 : W32) * 65537 + (t.mapIdx (fun j v => BitVec.ofNat 32 (j + 1) * v)).foldl (· + ·) 0
    (hashBlock x t).extractLsb' 0 32 = lo
      ∧ (hashBlock x t).extractLsb' 32 32 = ((x.extractLsb' 32 32 : W32).rotateLeft 7 ^^^ lo) + t.foldl (· + ·) 0)
  ∧ (∀ (g : Fin 16) (e : Fin 2) (cw : Bool) (a b : Src) (s : State), guardOn g s = true →
    (if cw then canRead2 a b s else canRead a s) = true →
    let x := valueOf a s
    let y := if cw then (valueB a b s).toNat else 0
    let u := if cw then after2 a b s else afterRead a s
    let taint := if cw then taint2 a b s else taintOf a s
    let id : W32 := x.extractLsb' 0 32
    let w := (x.extractLsb' 32 32).toNat
    (cw = true → wordAt y u = .ok ()) →
      (seqOf s id = none ∨ unitOf_ s id w = none → Traps (.tierIn g e cw a b) .pmt s)
      ∧ ∀ q n, seqOf s id = some q → unitOf_ s id w = some n →
        (n.state ≠ .valid ∨ n.tier1 = false → Traps (.tierIn g e cw a b) .pmt s)
        ∧ (n.state = .valid → n.tier1 = true →
          (allocRange q w u = none → Traps (.tierIn g e cw a b) .kvFull s)
          ∧ ∀ pa v, allocRange q w u = some (pa, v) → engineReady (taint || predTaint s.c (guardReg g)) u = .ok () →
            engineLoad u e < 16 →
            ∃ t op, exec (.tierIn g e cw a b) s = .next t ∧ t.c.a = s.c.a ∧ t.c.emitted = true
              ∧ t.pkg.attn.tiers = s.pkg.attn.tiers ++ [op] ∧ op.seqid = id ∧ op.unit = w ∧ op.e = e ∧ op.no = s.c.engCount
              ∧ op.cw = (if cw then some y else none)
              ∧ unitOf_ t id w = some { n with state := .paging, fresh := pa, gen := q.gen }))
  ∧ (∀ (e : Fin 2) (s : State),
    (nextTier s e = none → exec (.tierInComplete e) s = .next s ∧ ∀ why, exec (.tierInFail e why) s = .next s)
    ∧ ∀ t, nextTier s e = some t →
      (∀ q x, seqOf s t.seqid = some q → unitOf_ s t.seqid t.unit = some x →
        (x.state ≠ .paging ∨ x.fresh ≠ t.fresh → exec (.tierInComplete e) s = .next (noteServed t (dropTiers (fun u => u = t) s)))
        ∧ (x.state = .paging → x.fresh = t.fresh →
        (severed s.pkg x.poolPa = true → s.c.live = true → s.c.id.ctxid = t.own.ctxid → ∃ n, exec (.tierInComplete e) s = .next n
          ∧ n.c.a = s.c.a ∧ n.c.cpErr[e] = 3 ∧ (⟨.poolRegion, 0, false⟩ : Late) ∈ n.c.late)
        ∧ (severed s.pkg x.poolPa = false → x.held = [] → ∃ n, exec (.tierInComplete e) s = .next n ∧ n.c.a = s.c.a
          ∧ unitOf_ n t.seqid t.unit
            = some { x with state := .valid, tier1 := false, frame := x.fresh, fresh := 0, held := [], gen := q.gen }
          ∧ n.pkg.attn.tiers = s.pkg.attn.tiers.filter (fun u => u ≠ t)
          ∧ (s.c.live = true → s.c.id.ctxid = t.own.ctxid → n.c.cpDone[e] = s.c.cpDone[e] + 1)
          ∧ (Memory.wf s.pkg.mem = true → x.poolPa + rangeBytes q ≤ x.fresh ∨ x.fresh + rangeBytes q ≤ x.poolPa →
            ∀ i, i < rangeBytes q → getByte n.pkg.mem (x.fresh + i) = getByte s.pkg.mem (x.poolPa + i)))))
      ∧ (s.c.live = true → s.c.id.ctxid = t.own.ctxid → s.c2.live = false → ∀ why, ∃ n, exec (.tierInFail e why) s = .next n
        ∧ (why ≠ .poison ∨ s.c.phseq ≠ t.own.phseq → n.c.a = s.c.a ∧ n.c.cpErr[e] = errCode why
          ∧ (⟨xferCause why, 0, false⟩ : Late) ∈ n.c.late)
        ∧ (why = .poison → s.c.phseq = t.own.phseq → s.c.emitted = true → n.c.live = false)))
  ∧ ∀ (d a : Reg) (k : Fin 8) (s : State),
    (∀ i, i < k.val → awaitsV (atStart s).c (.reg (regPlus d i)) = false ∧ awaitsV (atStart s).c (.reg (regPlus a i)) = false) →
    let words (r : Reg) : Partial := groupPartial ((List.range k.val).map (fun i => s.c.a.v[regPlus r i]))
    let w := partialWords (mergePartial (words d) (words a))
    ∃ taint, exec (.vsmrg d a k) s = .next (s.withC { s.c with pend := s.c.pend ++ (List.range k.val).map (fun i =>
      ⟨s.c.gc + 10, .v (regPlus d i) (ofLanes (fun j => w.getD (64 * i + j) 0)) taint⟩) })

/-! ## Token merge (14) -/

/-- R374: the record that a token merge slot reads is legal, and its rows of the source lie in one region: the record's fields
and the source's place. -/
def recordRead (u : TmUse) (bk : Bool) (off : Nat) (s : State) (r : MergeRec) (src : Nat) : Prop :=
  ∃ b, record 64 off 64 s = .ok b ∧ mergeRec u b = .ok r ∧ mergeAligned r = .ok () ∧ rowsAt r.src r.sp r.row r.n bk s = .ok src

/-- A machine that differs from another in the token merge unit, in what its context has pending there, and in the engine
commands counted: registers, buffers and memory are the same. -/
def onlyTokenMerge (s t : State) : Prop :=
  t.c.a = s.c.a ∧ t.c2 = s.c2 ∧ t.pkg = s.pkg ∧ t.core.as = s.core.as ∧ t.core.cb = s.core.cb

/-- R370 to R378, R380 to R382: the token merge slots. tm.match takes a free slot or a READY map and leaves it PENDING, tm.merge
with FIN makes it READY with the edges merged, tm.unmrg and tm.spill read a READY map, tm.fill makes one from an image, tm.free
frees it; each traps MAP_LOST, MAP_STATE or MAP_FULL where its map is not as it needs, after the bounds of what it writes (those
of a lost handle, and which slots the other cores of the grove hold, are the model's: log 55, log 54).
Choices of the model it rests on: log 12 (a TRADDR that no rule states is free); log 54 (map slots of other cores are
free); log 55 (rows under a lost handle). -/
def Obligations.TokenMergeResults : Prop :=
  (∀ (g : Fin 16) (bk : Bool) (d : Reg) (b : Src) (s : State) (r : MergeRec) (src : Nat), guardOn g s = true →
    canRead b s = true → recordRead .pair bk (valueOf b s).toNat (afterRead b s) r src →
    let u := afterRead b s
    let taint := taintOf b s || predTaint s.c (guardReg g)
    let done (i : Nat) (new : MapSlot) : Prop := ∃ t, exec (.tmMatch g bk d b) s = .next t ∧ onlyTokenMerge s t
      ∧ t.c.tmq = s.c.tmq ++ [⟨s.c.engCount, i, new.gen, .pair src r.sp r.w r.fmt r.n r.rcnt⟩]
      ∧ t.c.pend = s.c.pend ++ [⟨s.c.gc + 1, .s d ((mapHandle i new.gen).zeroExtend 64) taint⟩] ∧ mapSlot t.core i = new
    (r.handle = 0 → r.n < 2 ∨ 8192 < r.n → Traps (.tmMatch g bk d b) .mapState s)
    ∧ (r.handle = 0 → 2 ≤ r.n → r.n ≤ 8192 →
      (freeMapSlot u = none → Traps (.tmMatch g bk d b) .mapFull s)
      ∧ ∀ i, freeMapSlot u = some i → engineReady taint u = .ok () → s.c.tmq.length < 8 → awaits (atStart s).c (.reg d) = false →
        done i ⟨takenGen i u, some s.c.id.ctxid, true, r.n, r.n, r.rcnt, true⟩)
    ∧ (r.handle ≠ 0 → mapOf r.handle u = none → Traps (.tmMatch g bk d b) .mapLost s)
    ∧ (r.handle ≠ 0 → ∀ i, mapOf r.handle u = some i →
      let m := mapSlot u.core i
      (m.pending = true ∨ r.n ≠ m.nc → Traps (.tmMatch g bk d b) .mapState s)
      ∧ (m.pending = false → r.n = m.nc → engineReady taint u = .ok () → s.c.tmq.length < 8 → awaits (atStart s).c (.reg d) = false →
        done i { m with pending := true, rcnt := r.rcnt, touched := true })))
  ∧ (∀ (g : Fin 16) (bk fin : Bool) (a b : Src) (s : State) (r : MergeRec) (src : Nat), guardOn g s = true →
    canRead2 a b s = true →
    let u := after2 a b s
    let h : W32 := (valueOf a s).extractLsb' 0 32
    let taint := taint2 a b s || predTaint s.c (guardReg g)
    let off := (valueB a b s).toNat
    (recordRead (.merge fin) bk off u r src →
      let k := destRows (.merge fin) h r.n u
      ((∀ dst, rowsAt r.dst r.dp r.row k true u ≠ .ok dst) → Traps (.tmMerge g bk fin a b) .bounds s)
      ∧ ∀ dst sz, rowsAt r.dst r.dp r.row k true u = .ok dst →
        (if fin then rowsAt r.sz 0 (4 * k) 1 true u else .ok 0) = .ok sz →
        (mapOf h u = none → Traps (.tmMerge g bk fin a b) .mapLost s)
        ∧ ∀ i, mapOf h u = some i →
          let m := mapSlot u.core i
          k = m.nc - m.rcnt
          ∧ (m.pending = false ∨ r.n ≠ m.nc → Traps (.tmMerge g bk fin a b) .mapState s)
          ∧ (m.pending = true → r.n = m.nc → engineReady taint u = .ok () → s.c.tmq.length < 8 →
            ∃ t, exec (.tmMerge g bk fin a b) s = .next t ∧ onlyTokenMerge s t ∧ t.c.pend = s.c.pend
              ∧ t.c.tmq = s.c.tmq ++ [⟨s.c.engCount, i, m.gen, .merge src dst r.sp r.dp r.w r.fmt (if fin then some sz else none)⟩]
              ∧ mapSlot t.core i = if fin then { m with pending := false, nc := k, rcnt := 0, touched := true } else m))
    ∧ (recordRead .restore bk off u r src →
      let k := destRows .restore h r.n u
      ((∀ dst, rowsAt r.dst r.dp r.row k true u ≠ .ok dst) → Traps (.tmUnmrg g bk a b) .bounds s)
      ∧ ∀ dst, rowsAt r.dst r.dp r.row k true u = .ok dst →
        (mapOf h u = none → Traps (.tmUnmrg g bk a b) .mapLost s)
        ∧ ∀ i, mapOf h u = some i →
          let m := mapSlot u.core i
          k = m.n0
          ∧ (m.pending = true ∨ r.n ≠ m.nc → Traps (.tmUnmrg g bk a b) .mapState s)
          ∧ (m.pending = false → r.n = m.nc → engineReady taint u = .ok () → s.c.tmq.length < 8 →
            ∃ t, exec (.tmUnmrg g bk a b) s = .next t ∧ onlyTokenMerge s t ∧ t.c.pend = s.c.pend ∧ t.core.maps = s.core.maps
              ∧ t.c.tmq = s.c.tmq ++ [⟨s.c.engCount, i, m.gen, .restore src dst r.sp r.dp r.row⟩]))
    ∧ (off % 64 ≠ 0 → Traps (.tmSpill g a b) .misalign s)
    ∧ (off % 64 = 0 →
      (mapOf h u = none → Traps (.tmSpill g a b) .mapLost s)
      ∧ ∀ i p, mapOf h u = some i →
        let m := mapSlot u.core i
        rowsAt off 0 (imageBytes m.n0 m.nc) 1 true u = .ok p →
        (m.pending = true → Traps (.tmSpill g a b) .mapState s)
        ∧ (m.pending = false → engineReady taint u = .ok () → s.c.tmq.length < 8 →
          ∃ t, exec (.tmSpill g a b) s = .next t ∧ onlyTokenMerge s t ∧ t.c.pend = s.c.pend ∧ t.core.maps = s.core.maps
            ∧ t.c.tmq = s.c.tmq ++ [⟨s.c.engCount, i, m.gen, .spill p⟩])))
  ∧ (∀ (g : Fin 16) (a : Src) (s : State), guardOn g s = true → canRead a s = true →
    let u := afterRead a s
    let h : W32 := (valueOf a s).extractLsb' 0 32
    (mapOf h u = none → Traps (.tmFree g a) .mapLost s)
    ∧ ∀ i, mapOf h u = some i → engineReady (taintOf a s || predTaint s.c (guardReg g)) u = .ok () →
      ∃ t, exec (.tmFree g a) s = .next t ∧ onlyTokenMerge s t ∧ t.c = s.c
        ∧ (mapSlot t.core i).owner = none ∧ (mapSlot t.core i).gen = nextGen (mapSlot s.core i).gen)
  ∧ (∀ (g : Fin 16) (d : Reg) (b : Src) (s : State), guardOn g s = true → canRead b s = true →
    let y := (valueOf b s).toNat
    let u := afterRead b s
    let taint := taintOf b s || predTaint s.c (guardReg g)
    ∀ hd, imageAt y 64 u = .ok hd →
      (imageHead hd = none → Traps (.tmFill g d b) .mapState s)
      ∧ ∀ n0 nc img, imageHead hd = some (n0, nc) → imageAt y (imageBytes n0 nc) u = .ok img →
        (imageMap img = none → Traps (.tmFill g d b) .mapState s)
        ∧ ∀ dest size, imageMap img = some (dest, size) →
          (freeMapSlot u = none → Traps (.tmFill g d b) .mapFull s)
          ∧ ∀ i, freeMapSlot u = some i → engineReady taint u = .ok () → awaits (atStart s).c (.reg d) = false →
            let gen := takenGen i u
            ∃ t, exec (.tmFill g d b) s = .next t ∧ onlyTokenMerge s t ∧ t.c.tmq = s.c.tmq
              ∧ t.c.pend = s.c.pend ++ [⟨s.c.gc + 1, .s d ((mapHandle i gen).zeroExtend 64) taint⟩]
              ∧ mapSlot t.core i = ⟨gen, some s.c.id.ctxid, false, n0, nc, 0, true⟩
              ∧ mapData t.core i gen = some ⟨i, gen, dest, size, []⟩)
  ∧ ∀ (off n : Nat) (s : State) (l : List Byte), record 64 off n s = .ok l → (atStart s).c.tmq = [] → imageAt off n s = .ok l

/-- R375, R376: what tm.match's command leaves in the map d of its slot: the edges that matching the source's rows keeps. -/
def pairIsPerformed (s t : State) (slot : Nat) (gen : W16) (d : MapData) : Prop :=
  ∀ src pitch w f n k, (s.c.tmq.head?).map (·.kind) = some (.pair src pitch w f n k) → t.core.as = s.core.as
    ∧ mapData t.core slot gen = some { d with edges := matchEdges (rowsOf f src pitch w n s) k }

/-- R375, R377: what tm.merge's command writes from the edges of its map: a row for each kept token at DST and, with FIN, the
sizes at SZ and the composed map; no other byte. Rows that the command itself reads are unspecified where they meet those it writes
(R374), and so is the row of a token of size 0 (log 55). -/
def mergeIsPerformed (s t : State) (slot : Nat) (gen : W16) (d : MapData) : Prop :=
  ∀ src dst sp dp w f sizes, (s.c.tmq.head?).map (·.kind) = some (.merge src dst sp dp w f sizes) →
    let n := d.size.length
    let m := n - d.edges.length
    let pos := mergePos d.edges n
    let size := mergeSizes pos d.size m
    let row := w * (widthOf f / 8)
    let out := mergeRows f w (rowsOf f src sp w n s) pos d.size m
    let atSizes (a : Nat) : Prop := ∃ z, sizes = some z ∧ z ≤ a ∧ a < z + 4 * m
    (row ≤ dp → rowsMeet src sp n dst dp m row = false → ∀ (j i : Nat) l b, out[j]? = some l → l[i]? = some b → size.getD j 0 ≠ 0 →
      ¬ atSizes (dst + j * dp + i) → getByte t.core.as (dst + j * dp + i) = b)
    ∧ (∀ a, (∀ j, j < m → a < dst + j * dp ∨ dst + j * dp + row ≤ a) → ¬ atSizes a → getByte t.core.as a = getByte s.core.as a)
    ∧ (sizes = none → mapData t.core slot gen = some d)
    ∧ (∀ z, sizes = some z → (∀ j, j < m → getNum t.core.as (z + 4 * j) 4 = size.getD j 0 % 2 ^ 32)
      ∧ mapData t.core slot gen = some { d with dest := d.dest.map (fun x => pos.getD x 0), size := size, edges := [] })

/-- R375, R378: tm.unmrg's command writes at token i of DST the row of the token that i was merged into; the map stays. -/
def restoreIsPerformed (s t : State) (slot : Nat) (gen : W16) (d : MapData) : Prop :=
  ∀ src dst sp dp len, (s.c.tmq.head?).map (·.kind) = some (.restore src dst sp dp len) → mapData t.core slot gen = some d
    ∧ (∀ a, (∀ i, i < d.dest.length → a < dst + i * dp ∨ dst + i * dp + len ≤ a) → getByte t.core.as a = getByte s.core.as a)
    ∧ (len ≤ dp → rowsMeet src sp d.size.length dst dp d.dest.length len = false →
      ∀ (i k : Nat) x, d.dest[i]? = some x → k < len → getByte t.core.as (dst + i * dp + k) = getByte s.core.as (src + x * sp + k))

/-- R375 to R379, R382, R383: the unit performs a context's commands in order; matching keeps at most RCNT edges, a merge
gives every token the index of its kept token and every kept token the size of its group, and writes one row per kept token;
a command whose map is gone writes nothing, and one that reads poison consumes it in place of its effect (R184). vlgsz adds to each
logit the log of its token's size, and traps FORMAT before anything that its operands could stop it for (log 20).
Choices of the model it rests on: log 12 (a TRADDR that no rule states is free); log 20 (FORMAT before the traps of
operands); log 55 (rows under a lost handle); log 56 (FP32 of a size); log 107 (poisoned bytes of typed buffers). -/
def Obligations.TokenMergeWork : Prop :=
  (∀ (s : State) (c : TmCmd) (rest : List TmCmd), s.c.tmq = c :: rest →
    let u := s.withC { s.c with tmq := rest }
    (mapData s.core c.slot c.gen = none → exec .tmCommandPerform s = .next u)
    ∧ ∀ d, mapData s.core c.slot c.gen = some d →
      (∀ off, tmPoison c.kind d s = some off → exec .tmCommandPerform s = .next (consumeLate (BitVec.ofNat 64 off) u))
      ∧ (tmPoison c.kind d s = none → ∃ t, exec .tmCommandPerform s = .next t ∧ t.c.a = s.c.a ∧ t.c.tmq = rest ∧ t.c2 = s.c2
        ∧ t.pkg = s.pkg ∧ t.core.cb = s.core.cb ∧ t.core.maps = s.core.maps
        ∧ ((mapSlot s.core c.slot).gen = c.gen → (mapSlot s.core c.slot).owner.isSome = true → Memory.wf s.core.as = true →
          pairIsPerformed s t c.slot c.gen d ∧ mergeIsPerformed s t c.slot c.gen d ∧ restoreIsPerformed s t c.slot c.gen d)
        ∧ ∀ off, c.kind = .spill off → t.core.as = putBytes s.core.as off (spillImage d.dest d.size)))
  ∧ (∀ (s : State), s.c.tmq = [] → s.c2.tmq = [] → exec .tmCommandPerform s = .next s)
  ∧ (∀ (rows : List (List Val)) (k : Nat), (matchEdges rows k).length ≤ k ∧ ∀ e ∈ matchEdges rows k, e.1 % 2 = 0 ∧ e.2 % 2 = 1)
  ∧ (∀ (edges : List (Nat × Nat)) (n : Nat), (mergePos edges n).length = n
    ∧ ∀ e ∈ edges, (∀ e' ∈ edges, e'.1 = e.1 → e' = e) → e.1 < n → e.2 < n → (∀ e' ∈ edges, e'.1 ≠ e.2) →
      (mergePos edges n).getD e.1 0 = (mergePos edges n).getD e.2 0)
  ∧ (∀ (pos sizes : List Nat) (k : Nat),
    (∀ j, j < k → (mergeSizes pos sizes k).getD j 0
      = (((List.range pos.length).filter (fun i => pos.getD i 0 = j)).map (fun i => sizes.getD i 0)).sum)
    ∧ (pos.length = sizes.length → (∀ p ∈ pos, p < k) → (mergeSizes pos sizes k).sum = sizes.sum))
  ∧ (∀ (pos sizes : List Nat) (f : Fmt) (w k : Nat) (rows : List (List Val)), (mergeRows f w rows pos sizes k).length = k)
  ∧ ∀ (g : Fin 8) (q base : Bool) (d : Reg) (a : Src) (s : State), vGuard g s ≠ 0 →
    (vtOf s.c.a.fmt ≠ .fp32 → Traps (.vlgsz g q d a base) .format s)
    ∧ (vtOf s.c.a.fmt = .fp32 → canReadV a s = true → awaitsV (atStart s).c (.reg d) = false →
      ∃ n fl xs, exec (.vlgsz g q d a base) s = .next (deliveredV (.reg d) q n fl xs
          (taintOfV a s || s.c.a.vTaint.getLsbD d || predTaint s.c (guardRegV g)) 6 (afterReadV a s))
        ∧ (isSto s.c.a.fmt = false → Elementwise .fp32 (vGuard g s)
          (fun i => addLogSize s.c.a.fmt base (elem (vectorOf .uint32 a s) 32 i) (elem s.c.a.v[d] 32 i) 0)
          s.c.a.v[d] n fl xs s.c.a.lanes))

/-! ## The dispatchers (15) -/

/-- R387 to R393, R395, R397 to R399, R401, R407: a launch word's records join the queue once a write has made its count nonzero; a task becomes READY once its
dependences and start time allow, and wait while the MMP serves a page of theirs; the dispatchers place the first claim that has a core; a context switched out is saved with
its identity; a gang forms on an aligned set of cores that all have room for it (log 60) and rejoins, where every former member is
still there and the other cores tell that they agree (log 14); streams are evicted to HOME and loaded from it. No step of these moves a byte of memory
but a launch word, a save image and a stream's HOME.
Choices of the model it rests on: log 13 (how the dispatcher reads records); log 14 (companions of a gang are free); log
25 (what is kept beside a save image); log 26 (when the package does its own work); log 59 (shared pre-emption requests);
log 60 (switch-outs and companions); log 75 (launch words watched after each step); log 105 (copies of an owner that is
away). -/
def Obligations.SchedulerResults : Prop :=
  (∀ (n : Fin 16) (s : State),
    ((∀ d, launchPa s.pkg (s.disp d) n = none) → exec (.launchWordWrite n) s = .next s)
    ∧ ∀ pa deps r, launchPa s.pkg (s.disp 0) n = some pa → ((s.disp 1).lwaddr[n]).getLsbD 0 = false →
      let w := getNum s.pkg.mem pa 8
      let env := ((s.disp 0).lwenv[n]).toNat
      let root := envReg s.pkg env 0
      let va := BitVec.ofNat 64 (w % 2 ^ 48 / 64 * 64)
      let b := getBytes s.pkg.mem r 64
      (s.disp 0).work[n] = none →
      ((s.disp 0).seen[n] = true → w / 2 ^ 48 ≠ 0 → exec (.launchWordWrite n) s = .next s)
      ∧ ((s.disp 0).seen[n] = false → w / 2 ^ 48 = 1 → (s.disp 0).queue.length < 65536 → dispPa s.pkg root va = .ok r →
        malformed false b = false → depsOf s.pkg root b = .ok deps →
        let t := enqueue 0 (taskOf b env (.slot n) deps) s
        exec (.launchWordWrite n) s = .next (writeMem (cellsAt pa (bytesOf 8 0)) (t.withPkg { t.pkg with
          unbacked := t.pkg.unbacked.filter (fun f => f.space = 1) }))))
  ∧ (∀ (n : Fin 16) (s : State) (f : FaultRec), launchFault s.pkg (s.disp 0) n = some f → ((s.disp 1).lwaddr[n]).getLsbD 0 = false →
    exec (.launchWordWrite n) s = .next s)
  ∧ (∀ (s : State) (i : Instr) (p : Task → Bool),
    (∃ pa, i = .dependenceWordWrite pa ∧ p = fun t => t.deps.any (fun d => d.1 / 128 = pa / 128))
      ∨ (i = .startTimeTest ∧ p = fun t => t.timed) →
    ∃ t, exec i s = .next t ∧ t.c = s.c ∧ t.c2 = s.c2 ∧ t.core = s.core ∧ t.pkg.mem = s.pkg.mem
      ∧ ∀ d, (t.disp d).queue = (s.disp d).queue.map (fun x => if p x then testReady s.pkg x else x))
  ∧ (∀ (p : Pkg) (t : Task), t.ready = none →
    testReady p t = if startable p t then { t with ready := some p.devtime } else t)
  ∧ (∀ (s : State),
    (∃ t, exec .priorityAgeing s = .next t ∧ t.c.a = s.c.a ∧ t.c2.a = s.c2.a ∧ t.core = s.core ∧ t.pkg.mem = s.pkg.mem)
    ∧ (∃ t, exec .taskPlacement s = .next t ∧ t.pkg.mem = s.pkg.mem
      ∧ t = raiseRequests (placeOne 1 (placeOne 0 (startStreamLoads (handOver s))).1).1)
    ∧ (∀ d e i cores slot x area, (claimOrder s d).find? (fun k => placeable s d k.1) = some (.task i, e) →
      placeFor s d (.task i) = some (cores, slot) → (s.disp d).queue[i]? = some x → freeArea s.pkg x.env = some area →
      x.twin = false →
      let q := { s.disp d with
        queue := (s.disp d).queue.eraseIdx i
        rr := (s.disp d).rr.mapIdx (fun l p => if l = e then (srcIndex x.src + 1) % 272 else p) }
      placeOne d s = (startTask x (cores.headD 0) slot area (withdraw x.req cores (s.withDisp d q)), true))
    ∧ (∀ d k cores slot, placeFor s d k = some (cores, slot) → ∀ core ∈ cores,
      s.pkg.retired.contains core = false ∧ halted s.pkg core = false ∧ slotFree s core slot = true)
    ∧ (s.c.saving = false → s.c2.saving = false → exec .saveComplete s = .next s)
    ∧ (s.c.saving = true → s.core.emerg = [] → ∃ t v, exec .saveComplete s = .next t ∧ t.c.live = false ∧ t.c2 = s.c2
      ∧ t.core.as = s.core.as ∧ t.core.cb = s.core.cb ∧ t.pkg.saved = s.pkg.saved ++ [v] ∧ v.id = s.c.id
      ∧ v.phseq = s.c.phseq ∧ v.regions = s.c.regions ∧ v.late = s.c.late ∧ v.since = s.pkg.devtime)
    ∧ (s.pkg.saved.find? (fun v => v.spilled && v.fault.isNone) = none → exec .emergencyAreaDrain s = .next s)
    ∧ (∀ v l, s.pkg.saved.find? (fun v => v.spilled && v.fault.isNone) = some v →
      envRange s.pkg v.task.env (v.id.savebase + BitVec.ofNat 64 ((s.core.emerg.map Prod.fst).headD 0)) s.core.emerg.length = (l, none) →
      ∃ t, exec .emergencyAreaDrain s = .next t ∧ t.c = s.c ∧ t.core.emerg = []
        ∧ t.pkg.mem = putCells s.pkg.mem (layOver l (s.core.emerg.map Prod.snd)).1
        ∧ t.pkg.saved = s.pkg.saved.map (fun x => if x.spilled then { x with spilled := false, since := s.pkg.devtime } else x))
    ∧ exec .starveCountExpiry s = .next (if s.c.live = true ∧ s.c2.live = true then
        s.withCore { s.core with starve := 0, boost := true } else s)
    ∧ exec .gangForm s = .next (raiseRequests (placeGang 1 (placeGang 0 s)))
    ∧ (∃ t, raiseRequests s = t ∧ t.pkg.saved.length = s.pkg.saved.length ∧ t.core = s.core ∧ t.c.a = s.c.a ∧ t.c2.a = s.c2.a
      ∧ t.pkg.mem = s.pkg.mem)
    ∧ (∀ die, let next := (claimOrder s die).find? (fun k => (gangOf s k.1).isSome && placeable s die k.1)
      (next = none → placeGang die s = s)
      ∧ ∀ i e v l, next = some (.saved i, e) → s.pkg.saved[i]? = some v → gangPlace s die (.saved i) v = some l →
        placeGang die s = withdraw v.req l (resumeGang i l s)
        ∧ ∀ c ∈ l, coreFree s v.id.lease v.id.twin v.regions c = true ∧ slotFree s c v.slot = true)
    ∧ (∀ i v c l, s.pkg.saved[i]? = some v →
      (readImage s.pkg v = none → resumeGang i (c :: l) s = resume i c v.slot s)
      ∧ ∀ b, readImage s.pkg v = some b →
        let led := onIdent v.id.ctxid (asMember (l.length + 1) v.id.twin c) (resume i c v.slot s)
        (v.mates = [] → resumeGang i (c :: l) s
          = l.foldl (fun s c => addCompanion (l.length + 1) v.task v.id (archOf b).iprio v.regions v.slot c s) led)
        ∧ (v.mates ≠ [] → (resumeGang i (c :: l) s).pkg.others
          = led.pkg.others ++ (v.mates.zip l).map (fun x => { x.1 with core := x.2, slot := v.slot })))
    ∧ (s.pkg.rejoin = none → exec .gangRejoin s = .next s)
    ∧ (∀ r, s.pkg.rejoin = some r → s.c.id.dec = true → s.c.waits.contains .rejoin = true →
      (r.bits.contains Config.coreId = false → exec .gangRejoin s = .next s)
      ∧ (r.bits.contains Config.coreId = true → ∃ t, exec .gangRejoin s = .next t
      ∧ t.pkg.rejoin = none ∧ t.pkg.mem = s.pkg.mem ∧ t.core = s.core ∧ t.c.a = s.c.a ∧ t.c.id.dec = false
      ∧ t.c.id.gsize = (if r.members.length = 4 then 2 else 1) ∧ t.c.waits.contains .rejoin = false
      ∧ (t.c.late = s.c.late ∧ t.pkg.others.map (fun o => o.lead)
          = s.pkg.others.map (fun o => if r.mates.contains o.ctxid then some s.c.id.ctxid else o.lead)
        ∨ t.pkg.others = s.pkg.others ∧ ∃ a, t.c.late = s.c.late ++ [⟨.fuse, a, false⟩])
      ∧ (r.mates.all (stillThere s) = false → ∃ a, t.c.late = s.c.late ++ [⟨.fuse, a, false⟩]))))
  ∧ ∀ (id : BitVec 12) (s : State),
    (look s.pkg.streams id.toNat = none → exec (.streamIdleExpiry id) s = .next s ∧ exec (.streamEvictionComplete id) s = .next s
      ∧ exec (.streamLoadComplete id) s = .next s)
    ∧ ∀ e, look s.pkg.streams id.toNat = some e →
      let set (x : Stream) (t : State) : State := t.withPkg { t.pkg with streams := put t.pkg.streams id.toNat x }
      let idle := (s.pkg.devtime - e.last).toNat
      let r := streamFront id e
      (e.state = .resident → e.idle ≠ 0 → e.idle.toNat * 1000 ≤ idle →
        exec (.streamIdleExpiry id) s = .next (set { e with state := .evicting } s))
      ∧ (e.state ≠ .resident ∨ e.idle = 0 ∨ idle < e.idle.toNat * 1000 → exec (.streamIdleExpiry id) s = .next s)
      ∧ (e.state = .evicting → e.core = Config.coreId → exec (.streamEvictionComplete id) s
        = .next (set { e with state := .evicted } (writeMem (homeCells e (getBytes s.core.as r.1 r.2)) s)))
      ∧ (e.state ≠ .evicting → exec (.streamEvictionComplete id) s = .next s)
      ∧ (e.state = .loading → e.core = Config.coreId →
        let bytes := (List.range r.2).map (fun i => getByte s.pkg.mem (e.home.getD (i / 2 ^ 16) 0 + i % 2 ^ 16))
        exec (.streamLoadComplete id) s = .next (set { e with state := .resident, last := s.pkg.devtime }
          (writeBuf false (cellsAt r.1 bytes) s)))
      ∧ (e.state ≠ .loading → exec (.streamLoadComplete id) s = .next s)

/-! ## Encodings (02) -/

/-- R26, R28: every slot in its encoding, with the stop bit clear or set, decodes to itself: no operand, guard or field of a
well-formed slot is lost. -/
def Obligations.DecodeOfEncode : Prop :=
  ∀ i : Instr, i.wf = true → isEvent i = false →
    ∃ w, encode i = [w] ∧ stopOf w = false ∧ decodeSlot w = .ok (.instr i) ∧ decodeSlot (withStop w) = .ok (.instr i)

/-- R28, R42: a word that decodes to a slot is that slot's encoding, its stop bit aside: no two words mean the same slot, and
what decodes is well formed and no event. -/
def Obligations.EncodeOfDecode : Prop :=
  ∀ (w : W32) (i : Instr), decodeSlot w = .ok (.instr i) →
    i.wf = true ∧ isEvent i = false ∧ encode i = [w &&& 0x7FFFFFFF]

/-- R26 to R37, R54: words that the spec writes out decode to the slots that it gives them for. -/
def Obligations.SpecWordsDecode : Prop :=
  let is (w : W32) (i : Instr) : Prop := decodeSlot w = .ok (.instr i)
  is 0x00083069 (.add 2 (.reg 3) (.reg 1) .lit) ∧ is 0x10805062 (.vmul 0 false (.reg 5) (.reg 1) (.latch 2))
    ∧ is 0x10023083 (.vadd 0 false (.latch 3) (.reg 2) (.reg 3)) ∧ decodeSlot 0xD0000064 = .ok (.lit 0x64)
    ∧ is 0x09804228 (.ldw 0 (.reg 4) (.reg 8) .zero) ∧ is 0x0C242281 (.atomAdd .rel .pkg (.reg 2) (.reg 10) (.reg 1))
    ∧ is 0x1A004093 (.vcvt 0 false (.reg 4) (.reg 2) 1 .e4m3) ∧ is 0x19003040 (.vred 0 false (.reg 3) (.reg 1) .add)
    ∧ is 0xA0000003 (.mcall 3) ∧ is 0x214A1080 (.mmac 1 2 128 true) ∧ is 0x3100136C (.cpGo 0 0 false false true true (.reg 4) .one)
    ∧ is 0x3C812091 (.tierIn 0 1 true (.reg 8) (.reg 9)) ∧ is 0x40C0FFFC (.loop 0 0xFFFC) ∧ is 0x45000A02 (.phase .pkg)
    ∧ is 0x0E001A68 (.sysRd 0 (.reg 1) .lit) ∧ is 0x48C00A01 (.rfe true) ∧ decodeSlot 0x70000000 = .ok .pad

/-- R27, R42, R54, R55: unit code 6 is reserved, a pad with a payload is none, and the opcodes that a unit does not assign are
refused, whatever the other bits. -/
def Obligations.ReservedWordsRefused : Prop :=
  ∀ w : W32,
    let unit := (bits w 28 3).toNat
    let op := (opOf w).toNat
    (unit = 6 → decodeSlot w = .error .reservedUnit)
    ∧ (unit = 7 → bits w 0 28 ≠ 0 → decodeSlot w = .error .padNotZero)
    ∧ (unit = 5 → decodeSlot w = .ok (.lit (bits w 0 28)))
    ∧ (unit = 0 → op = 0x3F → decodeSlot w = .error .unassigned)
    ∧ (unit = 1 → 0x3B ≤ op → decodeSlot w = .error .unassigned)
    ∧ (unit = 2 → 0x0D ≤ op → decodeSlot w = .error .unassigned)
    ∧ (unit = 3 → op ∈ [0x09, 0x0A, 0x0B, 0x0C, 0x0D, 0x0E, 0x0F, 0x17, 0x1D, 0x1E, 0x1F, 0x27] ∨ (0x33 ≤ op ∧ op < 0x38) ∨ 0x3D < op →
      decodeSlot w = .error .unassigned)
    ∧ (unit = 4 → op ∈ [0x0D, 0x0E, 0x0F, 0x12, 0x13] ∨ (0x1B ≤ op ∧ op < 0x20) ∨ 0x2A < op → decodeSlot w = .error .unassigned)

/-! ## The machine -/

/-- R34: a slot whose uniform guard is off, and a V slot with no lane enabled, has no effect at all. -/
def Obligations.GuardOffHasNoEffect : Prop :=
  ∀ (i : Instr) (s : State),
    (∀ g, uniformGuard i = some g → guardOn g s = false → exec i s = .next s)
    ∧ ∀ g, laneGuard i = some g → vGuard g s = 0 → exec i s = .next s

/-- R38, R40, R43, R46: a step runs the slot that the words at the pc decode to. With a group of one slot, beside pads and a
literal, the group waits for the results and words that the slot needs; then the step is exec of the slot on the machine as its
group finds it, the group count rises and the pc moves to the target or past the group. A slot that traps leaves only its trap,
one that freezes leaves the fault to the MMP, one that has to wait leaves the group to be issued again, and one that would take in
poison has the group consume it in place of its effect (R184).
Choices of the model it rests on: log 3 (device time per step is free); log 14 (companions of a gang are free); log 26
(when the package does its own work); log 102 (a freeze before a trap of one group). -/
def Obligations.StepRunsDecodedSlot : Prop :=
  ∀ (s t n : State) (ws : List W32) (k : Nat) (i : Instr), issuesNext s → fetches s ws t → slotsFrom 0 ws = [(k, i)] →
    let v := slotState k ws s t
    let group := startGroup (atGroup s).c.a.pc ws t
    (groupWaits [i] group = true → step s = stepped false group)
    ∧ (groupWaits [i] group = false → exec i v = .next n →
      (n.grp.trap = none → n.grp.stall = none → n.grp.poison = none → n.c.frozen = none → n.c.live = true → n.c2.live = false →
        let m : State := { n with grp := { n.grp with start := none } }
        step s = stepped true ((m.withC { n.c with
          gc := n.c.gc + 1, a := { n.c.a with pc := n.grp.target.getD n.grp.nx }, unmapped := [], raced := false, chStall := []
          }).withCore { n.core with boost := false }))
      ∧ (∀ c a, n.grp.trap = some (c, a) →
        let u := takeTrap c a (2 ^ k) (group.withC { group.c with unmapped := [] })
        u.c2.live = false → step s = stepped true (u.withCore { u.core with boost := false }))
      ∧ (n.grp.trap = none → n.grp.stall = none → ∀ f, n.c.frozen = some f →
        step s = stepped false (group.withC { group.c with frozen := some f, frozenSince := group.pkg.devtime }))
      ∧ (n.grp.trap = none → n.grp.stall = some .data → step s = stepped false group)
      ∧ (n.grp.trap = none → n.grp.stall = none → n.c.frozen = none → ∀ va, n.grp.poison = some va →
        let x := skipPops i v
        let u := consumeError va { x with grp := { x.grp with pc := (atGroup s).c.a.pc } }
        u.c2.live = false → step s = stepped true (u.withCore { u.core with boost := false })))

/-- R148, R163, R180, R307, R410, R427: what reset leaves where the spec states it: no context, no bytes in memory or buffers,
FREEZEMAX, FABCFG and PHBUDGET at their values, p0 all ones, the alarm policies, and memory in canonical form (log 10, log 11:
what the other registers hold is the model's choice, and nothing here rests on it). -/
def Obligations.ResetState : Prop :=
  State.reset.canonical ∧ State.reset.c.live = false ∧ State.reset.c2.live = false
    ∧ State.reset.pkg.freezemax = 0xC350 ∧ State.reset.pkg.fab.fabcfg = 0x00000014000003E8
    ∧ State.reset.c.a.phbudget = 0x10000 ∧ State.reset.c.a.p[0] = BitVec.allOnes 64
    ∧ State.reset.pkg.hbm.ecclog = 0 ∧ State.reset.pkg.hbm.linklog = 0 ∧ State.reset.pkg.hbm.lanemap = 0
    ∧ State.reset.pkg.ksu.policy.toList = [.halt, .halt, .halt, .erase] ∧ State.reset.agenda = []

/-- An invariant of every step, from every state: committed memory and the two typed buffers stay in canonical form, so that
equal memories are equal data (log 10 declares the form). -/
def Obligations.StepKeepsMemoryCanonical : Prop :=
  ∀ s t : State, s.canonical → step s = .next t → t.canonical

/-- No step of the model is refused: every slot and every event has a meaning (R54 gives the slots). -/
def Obligations.NoStepIsRefused : Prop :=
  ∀ (s : State) (r : Refusal), step s ≠ .refused r
end

