-- ==== Sys2Proof/Laws/State.lean ====
section
/-! SUPPORT. One lemma for each field of the state under each named update, true by unfolding: no later proof unfolds a
record update. -/

namespace Sys2Proof.Machine

/-! ## Replacing one part of the machine -/

@[simp] theorem State.withC_c (s : State) (k : Ctx) : (s.withC k).c = k := rfl
@[simp] theorem State.withC_c2 (s : State) (k : Ctx) : (s.withC k).c2 = s.c2 := rfl
@[simp] theorem State.withC_slot1 (s : State) (k : Ctx) : (s.withC k).slot1 = s.slot1 := rfl
@[simp] theorem State.withC_grp (s : State) (k : Ctx) : (s.withC k).grp = s.grp := rfl
@[simp] theorem State.withC_core (s : State) (k : Ctx) : (s.withC k).core = s.core := rfl
@[simp] theorem State.withC_pkg (s : State) (k : Ctx) : (s.withC k).pkg = s.pkg := rfl
@[simp] theorem State.withC_agenda (s : State) (k : Ctx) : (s.withC k).agenda = s.agenda := rfl
@[simp] theorem State.withC_tick (s : State) (k : Ctx) : (s.withC k).tick = s.tick := rfl
@[simp] theorem State.withCore_c (s : State) (k : Core) : (s.withCore k).c = s.c := rfl
@[simp] theorem State.withCore_c2 (s : State) (k : Core) : (s.withCore k).c2 = s.c2 := rfl
@[simp] theorem State.withCore_slot1 (s : State) (k : Core) : (s.withCore k).slot1 = s.slot1 := rfl
@[simp] theorem State.withCore_grp (s : State) (k : Core) : (s.withCore k).grp = s.grp := rfl
@[simp] theorem State.withCore_core (s : State) (k : Core) : (s.withCore k).core = k := rfl
@[simp] theorem State.withCore_pkg (s : State) (k : Core) : (s.withCore k).pkg = s.pkg := rfl
@[simp] theorem State.withCore_agenda (s : State) (k : Core) : (s.withCore k).agenda = s.agenda := rfl
@[simp] theorem State.withCore_tick (s : State) (k : Core) : (s.withCore k).tick = s.tick := rfl
@[simp] theorem State.withPkg_c (s : State) (p : Pkg) : (s.withPkg p).c = s.c := rfl
@[simp] theorem State.withPkg_c2 (s : State) (p : Pkg) : (s.withPkg p).c2 = s.c2 := rfl
@[simp] theorem State.withPkg_slot1 (s : State) (p : Pkg) : (s.withPkg p).slot1 = s.slot1 := rfl
@[simp] theorem State.withPkg_grp (s : State) (p : Pkg) : (s.withPkg p).grp = s.grp := rfl
@[simp] theorem State.withPkg_core (s : State) (p : Pkg) : (s.withPkg p).core = s.core := rfl
@[simp] theorem State.withPkg_pkg (s : State) (p : Pkg) : (s.withPkg p).pkg = p := rfl
@[simp] theorem State.withPkg_agenda (s : State) (p : Pkg) : (s.withPkg p).agenda = s.agenda := rfl
@[simp] theorem State.withPkg_tick (s : State) (p : Pkg) : (s.withPkg p).tick = s.tick := rfl

/-! ## Scheduling, emitting, issuing, buffering and waiting -/

@[simp] theorem emit_c2 (s : State) : (emit s).c2 = s.c2 := rfl
@[simp] theorem emit_slot1 (s : State) : (emit s).slot1 = s.slot1 := rfl
@[simp] theorem emit_grp (s : State) : (emit s).grp = s.grp := rfl
@[simp] theorem emit_core (s : State) : (emit s).core = s.core := rfl
@[simp] theorem emit_pkg (s : State) : (emit s).pkg = s.pkg := rfl
@[simp] theorem emit_agenda (s : State) : (emit s).agenda = s.agenda := rfl
@[simp] theorem emit_tick (s : State) : (emit s).tick = s.tick := rfl
@[simp] theorem issueOp_c2 (o : MemOp) (s : State) : (issueOp o s).c2 = s.c2 := rfl
@[simp] theorem issueOp_slot1 (o : MemOp) (s : State) : (issueOp o s).slot1 = s.slot1 := rfl
@[simp] theorem issueOp_grp (o : MemOp) (s : State) : (issueOp o s).grp = s.grp := rfl
@[simp] theorem issueOp_core (o : MemOp) (s : State) : (issueOp o s).core = s.core := rfl
@[simp] theorem issueOp_pkg (o : MemOp) (s : State) : (issueOp o s).pkg = s.pkg := rfl
@[simp] theorem issueOp_agenda (o : MemOp) (s : State) : (issueOp o s).agenda = s.agenda := rfl
@[simp] theorem issueOp_tick (o : MemOp) (s : State) : (issueOp o s).tick = s.tick := rfl
@[simp] theorem buffer_c2 (b : Buffered) (s : State) : (buffer b s).c2 = s.c2 := rfl
@[simp] theorem buffer_slot1 (b : Buffered) (s : State) : (buffer b s).slot1 = s.slot1 := rfl
@[simp] theorem buffer_grp (b : Buffered) (s : State) : (buffer b s).grp = s.grp := rfl
@[simp] theorem buffer_core (b : Buffered) (s : State) : (buffer b s).core = s.core := rfl
@[simp] theorem buffer_pkg (b : Buffered) (s : State) : (buffer b s).pkg = s.pkg := rfl
@[simp] theorem buffer_agenda (b : Buffered) (s : State) : (buffer b s).agenda = s.agenda := rfl
@[simp] theorem buffer_tick (b : Buffered) (s : State) : (buffer b s).tick = s.tick := rfl
@[simp] theorem waitFor_c2 (w : Wait) (s : State) : (waitFor w s).c2 = s.c2 := rfl
@[simp] theorem waitFor_slot1 (w : Wait) (s : State) : (waitFor w s).slot1 = s.slot1 := rfl
@[simp] theorem waitFor_grp (w : Wait) (s : State) : (waitFor w s).grp = s.grp := rfl
@[simp] theorem waitFor_core (w : Wait) (s : State) : (waitFor w s).core = s.core := rfl
@[simp] theorem waitFor_pkg (w : Wait) (s : State) : (waitFor w s).pkg = s.pkg := rfl
@[simp] theorem waitFor_agenda (w : Wait) (s : State) : (waitFor w s).agenda = s.agenda := rfl
@[simp] theorem waitFor_tick (w : Wait) (s : State) : (waitFor w s).tick = s.tick := rfl
@[simp] theorem sched_c2 (e : Eff) (l : Nat) (s : State) : (sched e l s).c2 = s.c2 := rfl
@[simp] theorem sched_slot1 (e : Eff) (l : Nat) (s : State) : (sched e l s).slot1 = s.slot1 := rfl
@[simp] theorem sched_grp (e : Eff) (l : Nat) (s : State) : (sched e l s).grp = s.grp := rfl
@[simp] theorem sched_core (e : Eff) (l : Nat) (s : State) : (sched e l s).core = s.core := rfl
@[simp] theorem sched_pkg (e : Eff) (l : Nat) (s : State) : (sched e l s).pkg = s.pkg := rfl
@[simp] theorem sched_agenda (e : Eff) (l : Nat) (s : State) : (sched e l s).agenda = s.agenda := rfl
@[simp] theorem sched_tick (e : Eff) (l : Nat) (s : State) : (sched e l s).tick = s.tick := rfl

@[simp] theorem sched_a (e : Eff) (l : Nat) (s : State) : (sched e l s).c.a = s.c.a := rfl
@[simp] theorem sched_gc (e : Eff) (l : Nat) (s : State) : (sched e l s).c.gc = s.c.gc := rfl
@[simp] theorem sched_id (e : Eff) (l : Nat) (s : State) : (sched e l s).c.id = s.c.id := rfl
@[simp] theorem sched_ops (e : Eff) (l : Nat) (s : State) : (sched e l s).c.ops = s.c.ops := rfl
@[simp] theorem sched_latch (e : Eff) (l : Nat) (s : State) : (sched e l s).c.latch = s.c.latch := rfl
@[simp] theorem sched_buf (e : Eff) (l : Nat) (s : State) : (sched e l s).c.buf = s.c.buf := rfl
@[simp] theorem sched_pend (e : Eff) (l : Nat) (s : State) : (sched e l s).c.pend = s.c.pend ++ [⟨s.c.gc + l, e⟩] := rfl
@[simp] theorem emit_a (s : State) : (emit s).c.a = s.c.a := rfl
@[simp] theorem emit_gc (s : State) : (emit s).c.gc = s.c.gc := rfl
@[simp] theorem emit_id (s : State) : (emit s).c.id = s.c.id := rfl
@[simp] theorem emit_ops (s : State) : (emit s).c.ops = s.c.ops := rfl
@[simp] theorem emit_latch (s : State) : (emit s).c.latch = s.c.latch := rfl
@[simp] theorem emit_pend (s : State) : (emit s).c.pend = s.c.pend := rfl
@[simp] theorem emit_buf (s : State) : (emit s).c.buf = s.c.buf := rfl
@[simp] theorem emit_emitted (s : State) : (emit s).c.emitted = true := rfl
@[simp] theorem issueOp_a (o : MemOp) (s : State) : (issueOp o s).c.a = s.c.a := rfl
@[simp] theorem issueOp_pend (o : MemOp) (s : State) : (issueOp o s).c.pend = s.c.pend := rfl
@[simp] theorem issueOp_ops (o : MemOp) (s : State) : (issueOp o s).c.ops = s.c.ops ++ [o] := rfl
@[simp] theorem issueOp_buf (o : MemOp) (s : State) : (issueOp o s).c.buf = s.c.buf := rfl
@[simp] theorem buffer_a (b : Buffered) (s : State) : (buffer b s).c.a = s.c.a := rfl
@[simp] theorem buffer_pend (b : Buffered) (s : State) : (buffer b s).c.pend = s.c.pend := rfl
@[simp] theorem buffer_ops (b : Buffered) (s : State) : (buffer b s).c.ops = s.c.ops := rfl
@[simp] theorem buffer_buf (b : Buffered) (s : State) : (buffer b s).c.buf = s.c.buf ++ [b] := rfl
@[simp] theorem waitFor_a (w : Wait) (s : State) : (waitFor w s).c.a = s.c.a := rfl
@[simp] theorem waitFor_pend (w : Wait) (s : State) : (waitFor w s).c.pend = s.c.pend := rfl
@[simp] theorem waitFor_waits (w : Wait) (s : State) : (waitFor w s).c.waits = s.c.waits ++ [w] := rfl
@[simp] theorem waitFor_ops (w : Wait) (s : State) : (waitFor w s).c.ops = s.c.ops := rfl

end Sys2Proof.Machine
end

