-- ==== Sys2Proof/Laws/Hbm.lean ====
section
/-! SUPPORT. What the HBM transfers of an access do where no word is struck, poisoned or held: nothing; and what they change at
most. -/

namespace Sys2Proof.Machine

/-- A quiet HBM delivers every access as it stands. -/
theorem fetchHbm_quiet {s : State} (h : s.pkg.hbm.quiet = true) (pas : List Nat) : fetchHbm pas s = s := by
  simp only [fetchHbm, h, if_true]
theorem hbmReady_quiet {k : Hbm} (h : k.quiet = true) (pas : List Nat) : hbmReady k pas = true := by
  simp only [hbmReady, h, Bool.true_or]
theorem unfetch_none {s : State} (h : s.pkg.hbm.fetched = []) (pas : List Nat) : unfetch pas s = s := by
  simp only [unfetch, h, List.isEmpty_nil, if_true]
theorem hbmHeld_none {k : Hbm} (h : k.swapping = []) (pas : List Nat) : hbmHeld k pas = false := by
  simp only [hbmHeld, h, List.isEmpty_nil, Bool.not_true, Bool.false_and]
theorem poisoned_none {p : Pkg} (h : p.hbm.poison = []) (a : Nat) : poisoned p a = false := by
  simp only [poisoned, h, List.contains_nil, Bool.false_and]
theorem quiet_swapping {k : Hbm} (h : k.quiet = true) : k.swapping = [] := by
  simp only [Hbm.quiet, Bool.and_eq_true, List.isEmpty_iff] at h; exact h.1.2
theorem quiet_poison {k : Hbm} (h : k.quiet = true) : k.poison = [] := by
  simp only [Hbm.quiet, Bool.and_eq_true, List.isEmpty_iff] at h; exact h.1.1.2

/-! ## Transfers change the package alone -/

@[simp] theorem withHbm_c (s : State) (h : Hbm) : (s.withHbm h).c = s.c := rfl
@[simp] theorem withHbm_core (s : State) (h : Hbm) : (s.withHbm h).core = s.core := rfl
@[simp] theorem withHbm_hbm (s : State) (h : Hbm) : (s.withHbm h).pkg.hbm = h := rfl
@[simp] theorem withHbm_mem (s : State) (h : Hbm) : (s.withHbm h).pkg.mem = s.pkg.mem := rfl
@[simp] theorem noteFetched_c (w : Nat) (s : State) : (noteFetched w s).c = s.c := rfl
@[simp] theorem noteFetched_core (w : Nat) (s : State) : (noteFetched w s).core = s.core := rfl
@[simp] theorem spoilWord_c (w : Nat) (s : State) : (spoilWord w s).c = s.c := by simp only [spoilWord, State.withPkg_c]
@[simp] theorem spoilWord_core (w : Nat) (s : State) : (spoilWord w s).core = s.core := by simp only [spoilWord, State.withPkg_core]

@[simp] theorem decodeWord_c (w : Nat) (s : State) : (decodeWord w s).c = s.c := by
  unfold decodeWord; dsimp only; split
  · simp
  · simp
  · simp
  · split <;> simp
@[simp] theorem decodeWord_core (w : Nat) (s : State) : (decodeWord w s).core = s.core := by
  unfold decodeWord; dsimp only; split
  · simp
  · simp
  · simp
  · split <;> simp
@[simp] theorem transferWord_c (w r : Nat) (s : State) : (transferWord w r s).c = s.c := by
  unfold transferWord; dsimp only; split <;> simp
@[simp] theorem transferWord_core (w r : Nat) (s : State) : (transferWord w r s).core = s.core := by
  unfold transferWord; dsimp only; split <;> simp
@[simp] theorem readWord_c (w : Nat) (s : State) : (readWord w s).c = s.c := by
  unfold readWord; dsimp only; split <;> simp
@[simp] theorem readWord_core (w : Nat) (s : State) : (readWord w s).core = s.core := by
  unfold readWord; dsimp only; split <;> simp
@[simp] theorem fetchWordOf_c (s : State) (w : Nat) : (fetchWordOf s w).c = s.c := by
  unfold fetchWordOf; dsimp only; split
  · rfl
  · split <;> simp
@[simp] theorem fetchWordOf_core (s : State) (w : Nat) : (fetchWordOf s w).core = s.core := by
  unfold fetchWordOf; dsimp only; split
  · rfl
  · split <;> simp
theorem foldl_fetch_c (l : List Nat) (s : State) : (l.foldl fetchWordOf s).c = s.c := by
  induction l generalizing s with
  | nil => rfl
  | cons w l ih => simp [ih]
theorem foldl_fetch_core (l : List Nat) (s : State) : (l.foldl fetchWordOf s).core = s.core := by
  induction l generalizing s with
  | nil => rfl
  | cons w l ih => simp [ih]
@[simp] theorem fetchHbm_c (pas : List Nat) (s : State) : (fetchHbm pas s).c = s.c := by
  unfold fetchHbm; split
  · rfl
  · exact foldl_fetch_c _ _
@[simp] theorem fetchHbm_core (pas : List Nat) (s : State) : (fetchHbm pas s).core = s.core := by
  unfold fetchHbm; split
  · rfl
  · exact foldl_fetch_core _ _

end Sys2Proof.Machine
end

