-- ==== Sys2Proof/Laws/Memory.lean ====
section
/-! SUPPORT. What the operations on memory do: each keeps the canonical form, a read after a write gives the byte written,
and a write leaves every other byte alone. -/

namespace Sys2Proof.Machine

theorem wf_iff {m : Cells} : Memory.wf m = true ↔ m.Pairwise (fun x y => x.1 < y.1) ∧ ∀ c ∈ m, c.2 ≠ 0 := by
  simp [Memory.wf]

theorem wf_nil : Memory.wf [] = true := rfl

theorem wf_cons {k : Nat} {b : Byte} {r : Cells} :
    Memory.wf ((k, b) :: r) = true ↔ (∀ c ∈ r, k < c.1) ∧ b ≠ 0 ∧ Memory.wf r = true := by
  simp only [wf_iff, List.pairwise_cons, List.mem_cons, forall_eq_or_imp]
  constructor
  · rintro ⟨⟨h1, h2⟩, h3, h4⟩; exact ⟨h1, h3, h2, h4⟩
  · rintro ⟨h1, h3, h2, h4⟩; exact ⟨⟨h1, h2⟩, h3, h4⟩

/-- Dropping entries keeps the canonical form. -/
theorem wf_filter {m : Cells} (p : Nat × Byte → Bool) (h : Memory.wf m = true) : Memory.wf (m.filter p) = true := by
  rw [wf_iff] at h ⊢
  exact ⟨h.1.filter p, fun c hc => h.2 c (List.mem_filter.mp hc).1⟩

theorem wf_zeroRange {m : Cells} (a n : Nat) (h : Memory.wf m = true) : Memory.wf (zeroRange m a n) = true := wf_filter _ h

theorem wf_cellsIn {m : Cells} (a n : Nat) (h : Memory.wf m = true) : Memory.wf (cellsIn m a n) = true := wf_filter _ h

/-- Every entry of memory after a write is the byte written or an entry from before. -/
theorem mem_putByte {m : Cells} {a : Nat} {x : Byte} {c : Nat × Byte} (h : c ∈ putByte m a x) : c.1 = a ∨ c ∈ m := by
  induction m with
  | nil =>
    unfold putByte at h
    split at h <;> simp_all
  | cons d r ih =>
    obtain ⟨k, b⟩ := d
    unfold putByte at h
    split at h
    · split at h <;> simp_all
      rcases h with rfl | h | h <;> simp_all
    · split at h
      · split at h <;> simp_all
        rcases h with rfl | h <;> simp_all
      · simp only [List.mem_cons] at h ⊢
        rcases h with h | h
        · exact .inr (.inl h)
        · rcases ih h with h | h
          · exact .inl h
          · exact .inr (.inr h)

/-- Writing one byte keeps the canonical form. -/
theorem wf_putByte {m : Cells} (a : Nat) (x : Byte) (h : Memory.wf m = true) : Memory.wf (putByte m a x) = true := by
  induction m with
  | nil =>
    unfold putByte
    split
    · rfl
    · exact wf_cons.mpr ⟨by simp, by assumption, wf_nil⟩
  | cons d r ih =>
    obtain ⟨k, b⟩ := d
    obtain ⟨h1, h2, h3⟩ := wf_cons.mp h
    unfold putByte
    split
    · split
      · exact h
      · refine wf_cons.mpr ⟨?_, by assumption, h⟩
        intro c hc
        rcases List.mem_cons.mp hc with rfl | hc
        · assumption
        · exact Nat.lt_trans ‹a < k› (h1 c hc)
    · split
      · subst ‹a = k›
        split
        · exact h3
        · exact wf_cons.mpr ⟨h1, by assumption, h3⟩
      · refine wf_cons.mpr ⟨?_, h2, ih h3⟩
        intro c hc
        rcases mem_putByte hc with e | hc
        · have := ‹¬ a < k›
          have := ‹¬ a = k›
          omega
        · exact h1 c hc

theorem wf_putCells {m : Cells} (w : Cells) (h : Memory.wf m = true) : Memory.wf (putCells m w) = true := by
  induction w generalizing m with
  | nil => exact h
  | cons c r ih => exact ih (wf_putByte c.1 c.2 h)

theorem wf_putBytes {m : Cells} (a : Nat) (l : List Byte) (h : Memory.wf m = true) : Memory.wf (putBytes m a l) = true :=
  wf_putCells _ h

/-- An address below every entry reads as 0. -/
theorem getByte_below {m : Cells} {a : Nat} (h : ∀ c ∈ m, a < c.1) : getByte m a = 0 := by
  induction m with
  | nil => rfl
  | cons d r ih =>
    have h1 := h d (by simp)
    unfold getByte
    rw [if_neg (by omega)]
    exact ih (fun c hc => h c (by simp [hc]))

/-- A read after a write: the byte written at its address, the old byte at every other. -/
theorem getByte_putByte {m : Cells} (a : Nat) (x : Byte) (b : Nat) (h : Memory.wf m = true) :
    getByte (putByte m a x) b = if b = a then x else getByte m b := by
  induction m with
  | nil =>
    unfold putByte
    by_cases hb : b = a
    · by_cases hx : x = 0#8 <;> simp [hx, hb, getByte]
    · have hb' : ¬ a = b := fun e => hb e.symm
      by_cases hx : x = 0#8 <;> simp [hx, hb, hb', getByte]
  | cons d r ih =>
    obtain ⟨k, y⟩ := d
    obtain ⟨h1, h2, h3⟩ := wf_cons.mp h
    unfold putByte
    split
    · by_cases hx : x = 0
      · simp only [hx, if_true]
        by_cases hb : b = a
        · subst hb
          rw [if_pos rfl]
          refine getByte_below (fun c hc => ?_)
          rcases List.mem_cons.mp hc with rfl | hc
          · assumption
          · exact Nat.lt_trans ‹b < k› (h1 c hc)
        · simp [hb]
      · simp only [hx, if_false]
        by_cases hb : b = a
        · simp [hb, getByte]
        · rw [getByte, if_neg (fun e => hb e.symm), if_neg hb]
    · split
      · subst ‹a = k›
        by_cases hx : x = 0
        · simp only [hx, if_true]
          by_cases hb : b = a
          · subst hb
            rw [if_pos rfl]
            exact getByte_below h1
          · rw [if_neg hb, getByte, if_neg (fun e => hb e.symm)]
        · simp only [hx, if_false]
          by_cases hb : b = a
          · simp [hb, getByte]
          · rw [getByte, if_neg (fun e => hb e.symm), if_neg hb, getByte, if_neg (fun e => hb e.symm)]
      · rw [getByte, getByte]
        by_cases hb : k = b
        · subst hb
          have : ¬ k = a := fun e => ‹¬ a = k› e.symm
          simp [this]
        · simp only [hb, if_false]
          exact ih h3

/-- A write of several bytes leaves every address outside them alone. -/
theorem getByte_putCells_other {m w : Cells} {b : Nat} (h : Memory.wf m = true) (hb : ∀ c ∈ w, c.1 ≠ b) :
    getByte (putCells m w) b = getByte m b := by
  induction w generalizing m with
  | nil => rfl
  | cons c r ih =>
    show getByte (putCells (putByte m c.1 c.2) r) b = _
    rw [ih (wf_putByte _ _ h) (fun d hd => hb d (by simp [hd])), getByte_putByte _ _ _ h,
      if_neg (fun e => hb c (by simp) e.symm)]

/-- Of several bytes written, the last for an address is the one it reads as. -/
theorem getByte_putCells_last {m w : Cells} {b : Nat} {x : Byte} (h : Memory.wf m = true) (r : Cells)
    (hr : ∀ c ∈ r, c.1 ≠ b) : getByte (putCells m (w ++ (b, x) :: r)) b = x := by
  unfold putCells
  rw [List.foldl_append, List.foldl_cons]
  have hw : Memory.wf (putCells m w) = true := wf_putCells w h
  have := getByte_putCells_other (wf_putByte b x hw) hr
  unfold putCells at this hw
  rw [this, getByte_putByte _ _ _ hw, if_pos rfl]

/-- Two memories in canonical form that read alike everywhere are equal. -/
theorem wf_ext {m n : Cells} (hm : Memory.wf m = true) (hn : Memory.wf n = true) (h : ∀ a, getByte m a = getByte n a) : m = n := by
  induction m generalizing n with
  | nil =>
    cases n with
    | nil => rfl
    | cons d r =>
      obtain ⟨k, b⟩ := d
      have := h k
      simp only [getByte, if_true] at this
      exact absurd this.symm (wf_cons.mp hn).2.1
  | cons d r ih =>
    obtain ⟨k, b⟩ := d
    obtain ⟨h1, h2, h3⟩ := wf_cons.mp hm
    cases n with
    | nil =>
      have := h k
      simp only [getByte, if_true] at this
      exact absurd this h2
    | cons e t =>
      obtain ⟨j, c⟩ := e
      obtain ⟨g1, g2, g3⟩ := wf_cons.mp hn
      have e1 := h k
      have e2 := h j
      simp only [getByte, if_true] at e1 e2
      have hkj : k = j := by
        rcases Nat.lt_trichotomy k j with l | l | l
        · rw [if_neg (by omega), getByte_below (fun c hc => Nat.lt_trans l (g1 c hc))] at e1
          exact absurd e1 h2
        · exact l
        · rw [if_neg (by omega), getByte_below (fun c hc => Nat.lt_trans l (h1 c hc))] at e2
          exact absurd e2.symm g2
      subst hkj
      rw [if_pos rfl] at e1
      subst e1
      congr 1
      refine ih h3 g3 (fun a => ?_)
      by_cases ha : k = a
      · subst ha
        rw [getByte_below h1, getByte_below g1]
      · have := h a
        simpa only [getByte, if_neg ha] using this

end Sys2Proof.Machine
end

