-- ==== Sys2Proof/Laws/Operands.lean ====
section
/-! SUPPORT. What the operand readers and the result writers do, said once: each answers exactly where the predicate of
Safety.lean says it can, and then gives the value and the machine that Safety.lean names. -/

namespace Sys2Proof.Machine

theorem checkLink_ok {n : LinkNo} {s : State} (h : linkOpen n s = true) : checkLink n s = .ok () := by
  simp only [linkOpen, Bool.and_eq_true, decide_eq_true_eq] at h
  simp only [checkLink, h.1.1, h.1.2, Bool.not_true, Bool.or_self, Bool.false_eq_true, if_false, if_neg h.2]

theorem popWords_ok {n : LinkNo} {k : Nat} {s : State} (h : linkOpen n s = true) (hq : arrived n k s = true) :
    popWords n k s = .ok (popped n k s, afterPop n k s) := by
  have hq' : ¬ (s.core.recv[n]).words.length < (s.core.recv[n]).rd + k := by
    simpa [arrived, Nat.not_lt] using hq
  simp only [popWords, checkLink_ok h, bind, Except.bind, if_neg hq']
  rfl

/-- A readable scalar operand gives its value, its taint and the machine after the read. -/
theorem srcS_ok {x : Src} {s : State} (h : canRead x s = true) :
    srcS x s = .ok (valueOf x s, taintOf x s, afterRead x s) := by
  cases x with
  | reg r => simp_all [canRead, srcS, valueOf, taintOf, afterRead]
  | latch n =>
    simp only [canRead, Bool.and_eq_true, Bool.not_eq_true'] at h
    obtain ⟨h1, h2⟩ := h
    simp only [srcS, h1, Bool.false_eq_true, if_false, valueOf, taintOf, afterRead]
    split at h2 <;> simp_all
  | lit =>
    simp only [canRead] at h
    simp only [srcS, valueOf, taintOf, afterRead]
    cases hl : s.grp.lit with
    | none => simp [hl] at h
    | some p => rfl
  | fifo n =>
    simp only [canRead, Bool.and_eq_true] at h
    simp [srcS, popWords_ok h.1 h.2, bind, Except.bind, valueOf, taintOf, afterRead]
  | zero => rfl
  | ident => rfl
  | one => rfl
  | mone => rfl

theorem srcSS_ok {a b : Src} {s : State} (h : canRead2 a b s = true) :
    srcSS a b s = .ok (valueOf a s, valueB a b s, taint2 a b s, after2 a b s) := by
  simp only [canRead2, Bool.and_eq_true] at h
  simp [srcSS, srcS_ok h.1, srcS_ok h.2, bind, Except.bind, valueB, taint2, after2]

/-- A readable vector operand gives its value, its taint and the machine after the read. -/
theorem srcV_ok {f : Fmt} {x : Src} {s : State} (h : canReadV x s = true) :
    srcV f x s = .ok (vectorOf f x s, taintOfV x s, afterReadV x s) := by
  cases x with
  | reg r => simp_all [canReadV, srcV, vectorOf, taintOfV, afterReadV]
  | latch n =>
    simp only [canReadV, Bool.and_eq_true, Bool.not_eq_true'] at h
    obtain ⟨h1, h2⟩ := h
    simp only [srcV, h1, Bool.false_eq_true, if_false, vectorOf, taintOfV, afterReadV]
    split at h2 <;> simp_all
  | lit =>
    simp only [canReadV] at h
    simp only [srcV, vectorOf, taintOfV, afterReadV]
    cases hl : s.grp.lit with
    | none => simp [hl] at h
    | some p => rfl
  | fifo n =>
    simp only [canReadV, Bool.and_eq_true] at h
    simp [srcV, popWords_ok h.1 h.2, bind, Except.bind, vectorOf, taintOfV, afterReadV]
  | zero => rfl
  | ident => rfl
  | one => rfl
  | mone => rfl

theorem admitPush_ok {n : LinkNo} {k : Nat} {s : State} (h : roomToPush n k s = true) :
    admitPush n k s = .ok (emit s) := by
  simp only [roomToPush, Bool.and_eq_true, decide_eq_true_eq] at h
  have h2 : ¬ 64 < (s.core.send[n]).length + reserved s.c n + k := Nat.not_lt.mpr h.2
  simp only [admitPush, checkLink_ok h.1, bind, Except.bind, if_neg h2]

/-- A scalar result whose destination can take it is due L groups later. -/
theorem writeS_ok {d : Dst} {s : State} (h : canWrite d s = true) (x : W64) (t : Bool) (l : Nat) :
    writeS d x t l s = .ok (wrote d x t l s) := by
  cases d with
  | reg r => simp_all [canWrite, writeS, wrote]
  | latch n => simp_all [canWrite, writeS, wrote]
  | fifo n =>
    simp only [canWrite, Bool.and_eq_true, Bool.not_eq_true'] at h
    simp [writeS, h.1, admitPush_ok h.2, bind, Except.bind, wrote]

/-- The same for a vector result. -/
theorem writeV_ok {d : Dst} {s : State} (h : canWriteV d s = true) (x : VWord) (t : Bool) (l : Nat) :
    writeV d x t l s = .ok (wroteV d x t l s) := by
  cases d with
  | reg r => simp_all [canWriteV, writeV, wroteV]
  | latch n => simp_all [canWriteV, writeV, wroteV]
  | fifo n =>
    simp only [canWriteV, Bool.and_eq_true, Bool.not_eq_true'] at h
    simp [writeV, h.1, admitPush_ok h.2, bind, Except.bind, wroteV]

/-- What the lanes not computed keep can be read wherever the result can be written. -/
theorem oldV_ok {d : Dst} {s : State} (h : canWriteV d s = true) : oldV d s = .ok (keptV d s) := by
  cases d with
  | reg r => simp_all [canWriteV, oldV, keptV]
  | latch n =>
    simp only [canWriteV, Bool.not_eq_true'] at h
    simp only [oldV, h, Bool.false_eq_true, if_false, keptV]
    split <;> simp_all
  | fifo n => rfl

theorem claimS_ok {d : Dst} {s : State} (h : canWrite d s = true) : claimS d s = .ok (claimed d s) := by
  cases d with
  | reg r => simp_all [canWrite, claimS, claimed]
  | latch n => simp_all [canWrite, claimS, claimed]
  | fifo n =>
    simp only [canWrite, Bool.and_eq_true, Bool.not_eq_true'] at h
    simp [claimS, h.1, admitPush_ok h.2, claimed]

theorem claimV_ok {d : Dst} {s : State} (h : canWriteV d s = true) : claimV d s = .ok (claimed d s) := by
  cases d with
  | reg r => simp_all [canWriteV, claimV, claimed]
  | latch n => simp_all [canWriteV, claimV, claimed]
  | fifo n =>
    simp only [canWriteV, Bool.and_eq_true, Bool.not_eq_true'] at h
    simp [claimV, h.1, admitPush_ok h.2, claimed]

/-! ## Reading changes no context -/

@[simp] theorem afterRead_c (x : Src) (s : State) : (afterRead x s).c = s.c := by cases x <;> rfl
@[simp] theorem afterRead_grp (x : Src) (s : State) : (afterRead x s).grp = s.grp := by cases x <;> rfl
@[simp] theorem afterRead_pkg (x : Src) (s : State) : (afterRead x s).pkg = s.pkg := by cases x <;> rfl
@[simp] theorem after2_c (a b : Src) (s : State) : (after2 a b s).c = s.c := by simp [after2]
@[simp] theorem after2_grp (a b : Src) (s : State) : (after2 a b s).grp = s.grp := by simp [after2]
@[simp] theorem after2_pkg (a b : Src) (s : State) : (after2 a b s).pkg = s.pkg := by simp [after2]
@[simp] theorem afterReadV_c (x : Src) (s : State) : (afterReadV x s).c = s.c := by cases x <;> rfl
@[simp] theorem afterReadV_grp (x : Src) (s : State) : (afterReadV x s).grp = s.grp := by cases x <;> rfl
@[simp] theorem afterReadV_pkg (x : Src) (s : State) : (afterReadV x s).pkg = s.pkg := by cases x <;> rfl
@[simp] theorem after2V_c (a b : Src) (s : State) : (after2V a b s).c = s.c := by simp [after2V]
@[simp] theorem after2V_grp (a b : Src) (s : State) : (after2V a b s).grp = s.grp := by simp [after2V]
@[simp] theorem after2V_pkg (a b : Src) (s : State) : (after2V a b s).pkg = s.pkg := by simp [after2V]

/-! ## What a group finds as it starts -/

/-- Outside a running group the machine stands as it is. -/
theorem atStart_none {s : State} (h : s.grp.start = none) : atStart s = s := by simp only [atStart, h]

@[simp] theorem atStart_afterRead_c (x : Src) (s : State) : (atStart (afterRead x s)).c = (atStart s).c := by
  cases x <;> first | rfl | (simp only [atStart, afterRead_grp]; split <;> simp [*])
@[simp] theorem atStart_afterReadV_c (x : Src) (s : State) : (atStart (afterReadV x s)).c = (atStart s).c := by
  cases x <;> first | rfl | (simp only [atStart, afterReadV_grp]; split <;> simp [*])

/-! ## The answer of a slot -/

@[simp] theorem answer_ok (s t : State) : answer s (.ok t) = .next t := rfl

theorem guarded_on {g : Fin 16} {s t : State} {r : State → Res State} (h : guardOn g s = true) (hr : r s = .ok t) :
    guarded g s r = .next t := by simp [guarded, h, hr]

theorem guarded_off {g : Fin 16} {s : State} {r : State → Res State} (h : guardOn g s = false) :
    guarded g s r = .next s := by simp [guarded, h]

theorem always_ok {s t : State} {r : State → Res State} (hr : r s = .ok t) : always s r = .next t := by
  simp [always, hr]

theorem guardedV_on {g : Fin 8} {s t : State} {r : LaneMask → State → Res State} (h : vGuard g s ≠ 0)
    (hr : r (vGuard g s) s = .ok t) : guardedV g s r = .next t := by
  simp only [guardedV, if_neg h, hr, answer_ok]

theorem guardedV_off {g : Fin 8} {s : State} {r : LaneMask → State → Res State} (h : vGuard g s = 0) :
    guardedV g s r = .next s := by simp [guardedV, h]

/-! ## Traps of a slot -/

/-- A slot that stops with a trap is left as `trapped` says. -/
theorem answer_trap (s : State) (c : Cause) (a : W64) : answer s (.error (.trap c (some a))) = .next (trapped c a s) := rfl
theorem answer_trap_free (s : State) (c : Cause) : answer s (.error (.trap c none)) = .next (trapped c (freeAddr s) s) := rfl

theorem guarded_trap {g : Fin 16} {s : State} {r : State → Res State} {c : Cause} (h : guardOn g s = true)
    (hr : r s = .error (.trap c none)) : guarded g s r = .next (trapped c (freeAddr s) s) := by
  simp only [guarded, h, if_true, hr, answer_trap_free]

theorem guarded_trapAt {g : Fin 16} {s : State} {r : State → Res State} {c : Cause} {a : W64} (h : guardOn g s = true)
    (hr : r s = .error (.trap c (some a))) : guarded g s r = .next (trapped c a s) := by
  simp only [guarded, h, if_true, hr, answer_trap]

theorem always_trap {s : State} {r : State → Res State} {c : Cause} (hr : r s = .error (.trap c none)) :
    always s r = .next (trapped c (freeAddr s) s) := by simp only [always, hr, answer_trap_free]

theorem guardedV_trap {g : Fin 8} {s : State} {r : LaneMask → State → Res State} {c : Cause} (h : vGuard g s ≠ 0)
    (hr : r (vGuard g s) s = .error (.trap c none)) : guardedV g s r = .next (trapped c (freeAddr s) s) := by
  simp only [guardedV, if_neg h, hr, answer_trap_free]

/-- A condition that holds lets the slot go on; one that does not traps. -/
@[simp] theorem need_true (c : Cause) : need true c = .ok () := rfl
@[simp] theorem need_false (c : Cause) : need false c = .error (.trap c none) := rfl

end Sys2Proof.Machine
end

