-- ==== Sys2Proof/Laws/PerInstr.lean ====
section
/-! SUPPORT. Laws stated of the instruction as syntax, one lemma per constructor. -/

/-- A slot is encoded in one word of 32 bits, and an event in none (R26). -/
def Sys2Proof.Laws.Encodes.Statement (i : Sys2Proof.Instr) : Prop :=
  (Sys2Proof.encode i).length = if Sys2Proof.Machine.isEvent i then 0 else 1

namespace Sys2Proof.Laws.Encodes

theorem add : ∀ x0 x1 x2 x3, Statement (.add x0 x1 x2 x3) := fun _ _ _ _ => rfl
theorem sub : ∀ x0 x1 x2 x3, Statement (.sub x0 x1 x2 x3) := fun _ _ _ _ => rfl
theorem mul : ∀ x0 x1 x2 x3, Statement (.mul x0 x1 x2 x3) := fun _ _ _ _ => rfl
theorem mulh : ∀ x0 x1 x2 x3, Statement (.mulh x0 x1 x2 x3) := fun _ _ _ _ => rfl
theorem mulhu : ∀ x0 x1 x2 x3, Statement (.mulhu x0 x1 x2 x3) := fun _ _ _ _ => rfl
theorem div : ∀ x0 x1 x2 x3, Statement (.div x0 x1 x2 x3) := fun _ _ _ _ => rfl
theorem divu : ∀ x0 x1 x2 x3, Statement (.divu x0 x1 x2 x3) := fun _ _ _ _ => rfl
theorem rem : ∀ x0 x1 x2 x3, Statement (.rem x0 x1 x2 x3) := fun _ _ _ _ => rfl
theorem remu : ∀ x0 x1 x2 x3, Statement (.remu x0 x1 x2 x3) := fun _ _ _ _ => rfl
theorem and : ∀ x0 x1 x2 x3, Statement (.and x0 x1 x2 x3) := fun _ _ _ _ => rfl
theorem or : ∀ x0 x1 x2 x3, Statement (.or x0 x1 x2 x3) := fun _ _ _ _ => rfl
theorem xor : ∀ x0 x1 x2 x3, Statement (.xor x0 x1 x2 x3) := fun _ _ _ _ => rfl
theorem andn : ∀ x0 x1 x2 x3, Statement (.andn x0 x1 x2 x3) := fun _ _ _ _ => rfl
theorem shl : ∀ x0 x1 x2 x3, Statement (.shl x0 x1 x2 x3) := fun _ _ _ _ => rfl
theorem shr : ∀ x0 x1 x2 x3, Statement (.shr x0 x1 x2 x3) := fun _ _ _ _ => rfl
theorem sar : ∀ x0 x1 x2 x3, Statement (.sar x0 x1 x2 x3) := fun _ _ _ _ => rfl
theorem rotl : ∀ x0 x1 x2 x3, Statement (.rotl x0 x1 x2 x3) := fun _ _ _ _ => rfl
theorem min : ∀ x0 x1 x2 x3, Statement (.min x0 x1 x2 x3) := fun _ _ _ _ => rfl
theorem max : ∀ x0 x1 x2 x3, Statement (.max x0 x1 x2 x3) := fun _ _ _ _ => rfl
theorem minu : ∀ x0 x1 x2 x3, Statement (.minu x0 x1 x2 x3) := fun _ _ _ _ => rfl
theorem maxu : ∀ x0 x1 x2 x3, Statement (.maxu x0 x1 x2 x3) := fun _ _ _ _ => rfl
theorem addsat : ∀ x0 x1 x2 x3, Statement (.addsat x0 x1 x2 x3) := fun _ _ _ _ => rfl
theorem clz : ∀ x0 x1 x2, Statement (.clz x0 x1 x2) := fun _ _ _ => rfl
theorem ctz : ∀ x0 x1 x2, Statement (.ctz x0 x1 x2) := fun _ _ _ => rfl
theorem popc : ∀ x0 x1 x2, Statement (.popc x0 x1 x2) := fun _ _ _ => rfl
theorem bfx : ∀ x0 x1 x2 x3, Statement (.bfx x0 x1 x2 x3) := fun _ _ _ _ => rfl
theorem bfi : ∀ x0 x1 x2 x3, Statement (.bfi x0 x1 x2 x3) := fun _ _ _ _ => rfl
theorem sext : ∀ x0 x1 x2 x3, Statement (.sext x0 x1 x2 x3) := fun _ _ _ _ => rfl
theorem ceq : ∀ x0 x1 x2 x3, Statement (.ceq x0 x1 x2 x3) := fun _ _ _ _ => rfl
theorem cne : ∀ x0 x1 x2 x3, Statement (.cne x0 x1 x2 x3) := fun _ _ _ _ => rfl
theorem clt : ∀ x0 x1 x2 x3, Statement (.clt x0 x1 x2 x3) := fun _ _ _ _ => rfl
theorem cltu : ∀ x0 x1 x2 x3, Statement (.cltu x0 x1 x2 x3) := fun _ _ _ _ => rfl
theorem cle : ∀ x0 x1 x2 x3, Statement (.cle x0 x1 x2 x3) := fun _ _ _ _ => rfl
theorem cleu : ∀ x0 x1 x2 x3, Statement (.cleu x0 x1 x2 x3) := fun _ _ _ _ => rfl
theorem sel : ∀ x0 x1 x2 x3, Statement (.sel x0 x1 x2 x3) := fun _ _ _ _ => rfl
theorem mov : ∀ x0 x1 x2, Statement (.mov x0 x1 x2) := fun _ _ _ => rfl
theorem ldb : ∀ x0 x1 x2 x3, Statement (.ldb x0 x1 x2 x3) := fun _ _ _ _ => rfl
theorem ldh : ∀ x0 x1 x2 x3, Statement (.ldh x0 x1 x2 x3) := fun _ _ _ _ => rfl
theorem ldw : ∀ x0 x1 x2 x3, Statement (.ldw x0 x1 x2 x3) := fun _ _ _ _ => rfl
theorem ldd : ∀ x0 x1 x2 x3, Statement (.ldd x0 x1 x2 x3) := fun _ _ _ _ => rfl
theorem stb : ∀ x0 x1 x2 x3, Statement (.stb x0 x1 x2 x3) := fun _ _ _ _ => rfl
theorem sth : ∀ x0 x1 x2 x3, Statement (.sth x0 x1 x2 x3) := fun _ _ _ _ => rfl
theorem stw : ∀ x0 x1 x2 x3, Statement (.stw x0 x1 x2 x3) := fun _ _ _ _ => rfl
theorem std : ∀ x0 x1 x2 x3, Statement (.std x0 x1 x2 x3) := fun _ _ _ _ => rfl
theorem ldc : ∀ x0 x1 x2 x3, Statement (.ldc x0 x1 x2 x3) := fun _ _ _ _ => rfl
theorem ldro : ∀ x0 x1 x2 x3, Statement (.ldro x0 x1 x2 x3) := fun _ _ _ _ => rfl
theorem ldpm : ∀ x0 x1 x2 x3, Statement (.ldpm x0 x1 x2 x3) := fun _ _ _ _ => rfl
theorem stpm : ∀ x0 x1 x2 x3, Statement (.stpm x0 x1 x2 x3) := fun _ _ _ _ => rfl
theorem atomAdd : ∀ x0 x1 x2 x3 x4, Statement (.atomAdd x0 x1 x2 x3 x4) := fun _ _ _ _ _ => rfl
theorem atomMin : ∀ x0 x1 x2 x3 x4, Statement (.atomMin x0 x1 x2 x3 x4) := fun _ _ _ _ _ => rfl
theorem atomMax : ∀ x0 x1 x2 x3 x4, Statement (.atomMax x0 x1 x2 x3 x4) := fun _ _ _ _ _ => rfl
theorem atomAnd : ∀ x0 x1 x2 x3 x4, Statement (.atomAnd x0 x1 x2 x3 x4) := fun _ _ _ _ _ => rfl
theorem atomOr : ∀ x0 x1 x2 x3 x4, Statement (.atomOr x0 x1 x2 x3 x4) := fun _ _ _ _ _ => rfl
theorem atomXor : ∀ x0 x1 x2 x3 x4, Statement (.atomXor x0 x1 x2 x3 x4) := fun _ _ _ _ _ => rfl
theorem atomXchg : ∀ x0 x1 x2 x3 x4, Statement (.atomXchg x0 x1 x2 x3 x4) := fun _ _ _ _ _ => rfl
theorem atomCas : ∀ x0 x1 x2 x3 x4, Statement (.atomCas x0 x1 x2 x3 x4) := fun _ _ _ _ _ => rfl
theorem sysRd : ∀ x0 x1 x2, Statement (.sysRd x0 x1 x2) := fun _ _ _ => rfl
theorem sysWr : ∀ x0 x1 x2, Statement (.sysWr x0 x1 x2) := fun _ _ _ => rfl
theorem timeRd : ∀ x0 x1 x2, Statement (.timeRd x0 x1 x2) := fun _ _ _ => rfl
theorem roinv : ∀ x0, Statement (.roinv x0) := fun _ => rfl
theorem tlbInv : ∀ x0 x1 x2, Statement (.tlbInv x0 x1 x2) := fun _ _ _ => rfl
theorem mset : ∀ x0 x1 x2, Statement (.mset x0 x1 x2) := fun _ _ _ => rfl
theorem msetMxstat : ∀ x0 x1, Statement (.msetMxstat x0 x1) := fun _ _ => rfl
theorem mget : ∀ x0 x1 x2, Statement (.mget x0 x1 x2) := fun _ _ _ => rfl
theorem mgetMxstat : ∀ x0 x1, Statement (.mgetMxstat x0 x1) := fun _ _ => rfl
theorem vadd : ∀ x0 x1 x2 x3 x4, Statement (.vadd x0 x1 x2 x3 x4) := fun _ _ _ _ _ => rfl
theorem vsub : ∀ x0 x1 x2 x3 x4, Statement (.vsub x0 x1 x2 x3 x4) := fun _ _ _ _ _ => rfl
theorem vmul : ∀ x0 x1 x2 x3 x4, Statement (.vmul x0 x1 x2 x3 x4) := fun _ _ _ _ _ => rfl
theorem vfma : ∀ x0 x1 x2 x3 x4, Statement (.vfma x0 x1 x2 x3 x4) := fun _ _ _ _ _ => rfl
theorem vfms : ∀ x0 x1 x2 x3 x4, Statement (.vfms x0 x1 x2 x3 x4) := fun _ _ _ _ _ => rfl
theorem vfnma : ∀ x0 x1 x2 x3 x4, Statement (.vfnma x0 x1 x2 x3 x4) := fun _ _ _ _ _ => rfl
theorem vmin : ∀ x0 x1 x2 x3 x4, Statement (.vmin x0 x1 x2 x3 x4) := fun _ _ _ _ _ => rfl
theorem vmax : ∀ x0 x1 x2 x3 x4, Statement (.vmax x0 x1 x2 x3 x4) := fun _ _ _ _ _ => rfl
theorem vabs : ∀ x0 x1 x2 x3, Statement (.vabs x0 x1 x2 x3) := fun _ _ _ _ => rfl
theorem vneg : ∀ x0 x1 x2 x3, Statement (.vneg x0 x1 x2 x3) := fun _ _ _ _ => rfl
theorem vdiv : ∀ x0 x1 x2 x3 x4, Statement (.vdiv x0 x1 x2 x3 x4) := fun _ _ _ _ _ => rfl
theorem vsqrt : ∀ x0 x1 x2 x3, Statement (.vsqrt x0 x1 x2 x3) := fun _ _ _ _ => rfl
theorem vrcp : ∀ x0 x1 x2 x3, Statement (.vrcp x0 x1 x2 x3) := fun _ _ _ _ => rfl
theorem vrsqrt : ∀ x0 x1 x2 x3, Statement (.vrsqrt x0 x1 x2 x3) := fun _ _ _ _ => rfl
theorem vexp2 : ∀ x0 x1 x2 x3, Statement (.vexp2 x0 x1 x2 x3) := fun _ _ _ _ => rfl
theorem vlog2 : ∀ x0 x1 x2 x3, Statement (.vlog2 x0 x1 x2 x3) := fun _ _ _ _ => rfl
theorem vand : ∀ x0 x1 x2 x3 x4, Statement (.vand x0 x1 x2 x3 x4) := fun _ _ _ _ _ => rfl
theorem vor : ∀ x0 x1 x2 x3 x4, Statement (.vor x0 x1 x2 x3 x4) := fun _ _ _ _ _ => rfl
theorem vxor : ∀ x0 x1 x2 x3 x4, Statement (.vxor x0 x1 x2 x3 x4) := fun _ _ _ _ _ => rfl
theorem vshl : ∀ x0 x1 x2 x3 x4, Statement (.vshl x0 x1 x2 x3 x4) := fun _ _ _ _ _ => rfl
theorem vshr : ∀ x0 x1 x2 x3 x4, Statement (.vshr x0 x1 x2 x3 x4) := fun _ _ _ _ _ => rfl
theorem vsar : ∀ x0 x1 x2 x3 x4, Statement (.vsar x0 x1 x2 x3 x4) := fun _ _ _ _ _ => rfl
theorem vmulh : ∀ x0 x1 x2 x3 x4, Statement (.vmulh x0 x1 x2 x3 x4) := fun _ _ _ _ _ => rfl
theorem vdot4 : ∀ x0 x1 x2 x3 x4, Statement (.vdot4 x0 x1 x2 x3 x4) := fun _ _ _ _ _ => rfl
theorem vceq : ∀ x0 x1 x2 x3 x4, Statement (.vceq x0 x1 x2 x3 x4) := fun _ _ _ _ _ => rfl
theorem vcne : ∀ x0 x1 x2 x3 x4, Statement (.vcne x0 x1 x2 x3 x4) := fun _ _ _ _ _ => rfl
theorem vclt : ∀ x0 x1 x2 x3 x4, Statement (.vclt x0 x1 x2 x3 x4) := fun _ _ _ _ _ => rfl
theorem vcle : ∀ x0 x1 x2 x3 x4, Statement (.vcle x0 x1 x2 x3 x4) := fun _ _ _ _ _ => rfl
theorem vcun : ∀ x0 x1 x2 x3 x4, Statement (.vcun x0 x1 x2 x3 x4) := fun _ _ _ _ _ => rfl
theorem vsel : ∀ x0 x1 x2 x3, Statement (.vsel x0 x1 x2 x3) := fun _ _ _ _ => rfl
theorem vmov : ∀ x0 x1 x2 x3, Statement (.vmov x0 x1 x2 x3) := fun _ _ _ _ => rfl
theorem vbcast : ∀ x0 x1 x2 x3, Statement (.vbcast x0 x1 x2 x3) := fun _ _ _ _ => rfl
theorem vext : ∀ x0 x1 x2 x3 x4, Statement (.vext x0 x1 x2 x3 x4) := fun _ _ _ _ _ => rfl
theorem vins : ∀ x0 x1 x2 x3 x4, Statement (.vins x0 x1 x2 x3 x4) := fun _ _ _ _ _ => rfl
theorem vperm : ∀ x0 x1 x2 x3 x4, Statement (.vperm x0 x1 x2 x3 x4) := fun _ _ _ _ _ => rfl
theorem vrot : ∀ x0 x1 x2 x3 x4, Statement (.vrot x0 x1 x2 x3 x4) := fun _ _ _ _ _ => rfl
theorem vred : ∀ x0 x1 x2 x3 x4, Statement (.vred x0 x1 x2 x3 x4) := fun _ _ _ _ _ => rfl
theorem vscan : ∀ x0 x1 x2 x3 x4, Statement (.vscan x0 x1 x2 x3 x4) := fun _ _ _ _ _ => rfl
theorem vsticky : ∀ x0 x1 x2, Statement (.vsticky x0 x1 x2) := fun _ _ _ => rfl
theorem vstclr : ∀ x0 x1 x2, Statement (.vstclr x0 x1 x2) := fun _ _ _ => rfl
theorem vcvt : ∀ x0 x1 x2 x3 x4 x5, Statement (.vcvt x0 x1 x2 x3 x4 x5) := fun _ _ _ _ _ _ => rfl
theorem vqnt : ∀ x0 x1 x2 x3, Statement (.vqnt x0 x1 x2 x3) := fun _ _ _ _ => rfl
theorem vdqn : ∀ x0 x1 x2 x3, Statement (.vdqn x0 x1 x2 x3) := fun _ _ _ _ => rfl
theorem vrnd : ∀ x0 x1 x2 x3 x4, Statement (.vrnd x0 x1 x2 x3 x4) := fun _ _ _ _ _ => rfl
theorem vscl : ∀ x0 x1 x2 x3 x4, Statement (.vscl x0 x1 x2 x3 x4) := fun _ _ _ _ _ => rfl
theorem vsp2Enc : ∀ x0 x1 x2 x3 x4, Statement (.vsp2Enc x0 x1 x2 x3 x4) := fun _ _ _ _ _ => rfl
theorem vsp2Dec : ∀ x0 x1 x2 x3 x4, Statement (.vsp2Dec x0 x1 x2 x3 x4) := fun _ _ _ _ _ => rfl
theorem vpk : ∀ x0 x1 x2 x3 x4, Statement (.vpk x0 x1 x2 x3 x4) := fun _ _ _ _ _ => rfl
theorem vupk : ∀ x0 x1 x2 x3 x4 x5 x6, Statement (.vupk x0 x1 x2 x3 x4 x5 x6) := fun _ _ _ _ _ _ _ => rfl
theorem vld : ∀ x0 x1 x2 x3 x4, Statement (.vld x0 x1 x2 x3 x4) := fun _ _ _ _ _ => rfl
theorem vst : ∀ x0 x1 x2 x3 x4, Statement (.vst x0 x1 x2 x3 x4) := fun _ _ _ _ _ => rfl
theorem vlda : ∀ x0 x1 x2 x3 x4, Statement (.vlda x0 x1 x2 x3 x4) := fun _ _ _ _ _ => rfl
theorem vsta : ∀ x0 x1 x2 x3, Statement (.vsta x0 x1 x2 x3) := fun _ _ _ _ => rfl
theorem vldc : ∀ x0 x1 x2 x3, Statement (.vldc x0 x1 x2 x3) := fun _ _ _ _ => rfl
theorem vstc : ∀ x0 x1 x2 x3, Statement (.vstc x0 x1 x2 x3) := fun _ _ _ _ => rfl
theorem vgat : ∀ x0 x1 x2 x3 x4, Statement (.vgat x0 x1 x2 x3 x4) := fun _ _ _ _ _ => rfl
theorem vsct : ∀ x0 x1 x2 x3, Statement (.vsct x0 x1 x2 x3) := fun _ _ _ _ => rfl
theorem vpf : ∀ x0 x1 x2 x3, Statement (.vpf x0 x1 x2 x3) := fun _ _ _ _ => rfl
theorem vsmrg : ∀ x0 x1 x2, Statement (.vsmrg x0 x1 x2) := fun _ _ _ => rfl
theorem vlgsz : ∀ x0 x1 x2 x3 x4, Statement (.vlgsz x0 x1 x2 x3 x4) := fun _ _ _ _ _ => rfl
theorem mcall : ∀ x0, Statement (.mcall x0) := fun _ => rfl
theorem mret : Statement .mret := rfl
theorem mloop : ∀ x0 x1, Statement (.mloop x0 x1) := fun _ _ => rfl
theorem mend : ∀ x0 x1, Statement (.mend x0 x1) := fun _ _ => rfl
theorem mlda : ∀ x0 x1, Statement (.mlda x0 x1) := fun _ _ => rfl
theorem mmac : ∀ x0 x1 x2 x3, Statement (.mmac x0 x1 x2 x3) := fun _ _ _ _ => rfl
theorem mzero : ∀ x0, Statement (.mzero x0) := fun _ => rfl
theorem mdrain : ∀ x0 x1 x2 x3, Statement (.mdrain x0 x1 x2 x3) := fun _ _ _ _ => rfl
theorem mhada : ∀ x0 x1 x2, Statement (.mhada x0 x1 x2) := fun _ _ _ => rfl
theorem mkat : ∀ x0, Statement (.mkat x0) := fun _ => rfl
theorem madd : ∀ x0 x1 x2 x3, Statement (.madd x0 x1 x2 x3) := fun _ _ _ _ => rfl
theorem mprogSet : ∀ x0 x1 x2, Statement (.mprogSet x0 x1 x2) := fun _ _ _ => rfl
theorem mprogClr : ∀ x0, Statement (.mprogClr x0) := fun _ => rfl
theorem msync : Statement .msync := rfl
theorem cpSrc : ∀ x0 x1 x2 x3 x4, Statement (.cpSrc x0 x1 x2 x3 x4) := fun _ _ _ _ _ => rfl
theorem cpDst : ∀ x0 x1 x2 x3 x4, Statement (.cpDst x0 x1 x2 x3 x4) := fun _ _ _ _ _ => rfl
theorem cpShp : ∀ x0 x1 x2 x3, Statement (.cpShp x0 x1 x2 x3) := fun _ _ _ _ => rfl
theorem cpFmt : ∀ x0 x1 x2, Statement (.cpFmt x0 x1 x2) := fun _ _ _ => rfl
theorem cpFmtCtl : ∀ x0 x1 x2, Statement (.cpFmtCtl x0 x1 x2) := fun _ _ _ => rfl
theorem cpGo : ∀ x0 x1 x2 x3 x4 x5 x6 x7, Statement (.cpGo x0 x1 x2 x3 x4 x5 x6 x7) := fun _ _ _ _ _ _ _ _ => rfl
theorem cpFill : ∀ x0 x1 x2 x3, Statement (.cpFill x0 x1 x2 x3) := fun _ _ _ _ => rfl
theorem cpStat : ∀ x0 x1 x2 x3, Statement (.cpStat x0 x1 x2 x3) := fun _ _ _ _ => rfl
theorem cpCancel : ∀ x0 x1 x2, Statement (.cpCancel x0 x1 x2) := fun _ _ _ => rfl
theorem cpTdef : ∀ x0 x1 x2, Statement (.cpTdef x0 x1 x2) := fun _ _ _ => rfl
theorem resAlloc : ∀ x0 x1 x2, Statement (.resAlloc x0 x1 x2) := fun _ _ _ => rfl
theorem resLoad : ∀ x0 x1 x2, Statement (.resLoad x0 x1 x2) := fun _ _ _ => rfl
theorem resPin : ∀ x0 x1, Statement (.resPin x0 x1) := fun _ _ => rfl
theorem resUnpin : ∀ x0 x1 x2, Statement (.resUnpin x0 x1 x2) := fun _ _ _ => rfl
theorem resRevoke : ∀ x0 x1, Statement (.resRevoke x0 x1) := fun _ _ => rfl
theorem resReload : ∀ x0 x1, Statement (.resReload x0 x1) := fun _ _ => rfl
theorem resQ : ∀ x0 x1 x2, Statement (.resQ x0 x1 x2) := fun _ _ _ => rfl
theorem rmaConn : ∀ x0 x1 x2, Statement (.rmaConn x0 x1 x2) := fun _ _ _ => rfl
theorem rmaConnClose : ∀ x0 x1, Statement (.rmaConnClose x0 x1) := fun _ _ => rfl
theorem rmaPut : ∀ x0 x1 x2 x3, Statement (.rmaPut x0 x1 x2 x3) := fun _ _ _ _ => rfl
theorem rmaGet : ∀ x0 x1 x2 x3 x4, Statement (.rmaGet x0 x1 x2 x3 x4) := fun _ _ _ _ _ => rfl
theorem rmaRed : ∀ x0 x1 x2 x3 x4, Statement (.rmaRed x0 x1 x2 x3 x4) := fun _ _ _ _ _ => rfl
theorem rmaStat : ∀ x0 x1 x2, Statement (.rmaStat x0 x1 x2) := fun _ _ _ => rfl
theorem chSend : ∀ x0 x1 x2, Statement (.chSend x0 x1 x2) := fun _ _ _ => rfl
theorem chRecv : ∀ x0 x1, Statement (.chRecv x0 x1) := fun _ _ => rfl
theorem chRed : ∀ x0 x1 x2, Statement (.chRed x0 x1 x2) := fun _ _ _ => rfl
theorem chBcast : ∀ x0 x1 x2, Statement (.chBcast x0 x1 x2) := fun _ _ _ => rfl
theorem chAgat : ∀ x0 x1 x2, Statement (.chAgat x0 x1 x2) := fun _ _ _ => rfl
theorem chWait : ∀ x0 x1 x2 x3 x4, Statement (.chWait x0 x1 x2 x3 x4) := fun _ _ _ _ _ => rfl
theorem chQ : ∀ x0 x1 x2, Statement (.chQ x0 x1 x2) := fun _ _ _ => rfl
theorem atQ : ∀ x0 x1 x2 x3 x4 x5, Statement (.atQ x0 x1 x2 x3 x4 x5) := fun _ _ _ _ _ _ => rfl
theorem kvApp : ∀ x0 x1 x2 x3 x4, Statement (.kvApp x0 x1 x2 x3 x4) := fun _ _ _ _ _ => rfl
theorem pmRd : ∀ x0 x1 x2, Statement (.pmRd x0 x1 x2) := fun _ _ _ => rfl
theorem pmWrSeq : ∀ x0 x1, Statement (.pmWrSeq x0 x1) := fun _ _ => rfl
theorem pmWrUnit : ∀ x0 x1, Statement (.pmWrUnit x0 x1) := fun _ _ => rfl
theorem pmRebal : ∀ x0 x1 x2 x3, Statement (.pmRebal x0 x1 x2 x3) := fun _ _ _ _ => rfl
theorem pxHash : ∀ x0 x1 x2, Statement (.pxHash x0 x1 x2) := fun _ _ _ => rfl
theorem pxLook : ∀ x0 x1 x2, Statement (.pxLook x0 x1 x2) := fun _ _ _ => rfl
theorem pxPin : ∀ x0 x1 x2, Statement (.pxPin x0 x1 x2) := fun _ _ _ => rfl
theorem pxUnpin : ∀ x0 x1 x2, Statement (.pxUnpin x0 x1 x2) := fun _ _ _ => rfl
theorem pxIns : ∀ x0 x1 x2, Statement (.pxIns x0 x1 x2) := fun _ _ _ => rfl
theorem tierIn : ∀ x0 x1 x2 x3 x4, Statement (.tierIn x0 x1 x2 x3 x4) := fun _ _ _ _ _ => rfl
theorem tmMatch : ∀ x0 x1 x2 x3, Statement (.tmMatch x0 x1 x2 x3) := fun _ _ _ _ => rfl
theorem tmMerge : ∀ x0 x1 x2 x3 x4, Statement (.tmMerge x0 x1 x2 x3 x4) := fun _ _ _ _ _ => rfl
theorem tmUnmrg : ∀ x0 x1 x2 x3, Statement (.tmUnmrg x0 x1 x2 x3) := fun _ _ _ _ => rfl
theorem tmFree : ∀ x0 x1, Statement (.tmFree x0 x1) := fun _ _ => rfl
theorem tmSpill : ∀ x0 x1 x2, Statement (.tmSpill x0 x1 x2) := fun _ _ _ => rfl
theorem tmFill : ∀ x0 x1 x2, Statement (.tmFill x0 x1 x2) := fun _ _ _ => rfl
theorem br : ∀ x0 x1 x2, Statement (.br x0 x1 x2) := fun _ _ _ => rfl
theorem jal : ∀ x0 x1 x2, Statement (.jal x0 x1 x2) := fun _ _ _ => rfl
theorem jr : ∀ x0 x1 x2 x3, Statement (.jr x0 x1 x2 x3) := fun _ _ _ _ => rfl
theorem loop : ∀ x0 x1, Statement (.loop x0 x1) := fun _ _ => rfl
theorem lset : ∀ x0 x1 x2, Statement (.lset x0 x1 x2) := fun _ _ _ => rfl
theorem pand : ∀ x0 x1 x2, Statement (.pand x0 x1 x2) := fun _ _ _ => rfl
theorem por : ∀ x0 x1 x2, Statement (.por x0 x1 x2) := fun _ _ _ => rfl
theorem pxor : ∀ x0 x1 x2, Statement (.pxor x0 x1 x2) := fun _ _ _ => rfl
theorem pandn : ∀ x0 x1 x2, Statement (.pandn x0 x1 x2) := fun _ _ _ => rfl
theorem pnot : ∀ x0 x1, Statement (.pnot x0 x1) := fun _ _ => rfl
theorem pany : ∀ x0 x1 x2, Statement (.pany x0 x1 x2) := fun _ _ _ => rfl
theorem pall : ∀ x0 x1 x2, Statement (.pall x0 x1 x2) := fun _ _ _ => rfl
theorem pset : ∀ x0 x1, Statement (.pset x0 x1) := fun _ _ => rfl
theorem fmtSet : ∀ x0 x1 x2, Statement (.fmtSet x0 x1 x2) := fun _ _ _ => rfl
theorem fmtGet : ∀ x0 x1, Statement (.fmtGet x0 x1) := fun _ _ => rfl
theorem phase : ∀ x0, Statement (.phase x0) := fun _ => rfl
theorem phin : ∀ x0 x1, Statement (.phin x0 x1) := fun _ _ => rfl
theorem fence : ∀ x0 x1 x2, Statement (.fence x0 x1 x2) := fun _ _ _ => rfl
theorem barInit : ∀ x0 x1 x2, Statement (.barInit x0 x1 x2) := fun _ _ _ => rfl
theorem barArr : ∀ x0 x1, Statement (.barArr x0 x1) := fun _ _ => rfl
theorem barWait : ∀ x0 x1 x2, Statement (.barWait x0 x1 x2) := fun _ _ _ => rfl
theorem waita : ∀ x0 x1 x2 x3 x4, Statement (.waita x0 x1 x2 x3 x4) := fun _ _ _ _ _ => rfl
theorem tspawn : ∀ x0 x1 x2, Statement (.tspawn x0 x1 x2) := fun _ _ _ => rfl
theorem texit : ∀ x0, Statement (.texit x0) := fun _ => rfl
theorem trap : ∀ x0 x1, Statement (.trap x0 x1) := fun _ _ => rfl
theorem rfe : ∀ x0, Statement (.rfe x0) := fun _ => rfl
theorem fuse : ∀ x0 x1, Statement (.fuse x0 x1) := fun _ _ => rfl
theorem decpl : ∀ x0, Statement (.decpl x0) := fun _ => rfl
theorem rejoin : ∀ x0, Statement (.rejoin x0) := fun _ => rfl
theorem prio : ∀ x0 x1, Statement (.prio x0 x1) := fun _ _ => rfl
theorem sctPin : ∀ x0 x1 x2, Statement (.sctPin x0 x1 x2) := fun _ _ _ => rfl
theorem sctRel : ∀ x0 x1 x2, Statement (.sctRel x0 x1 x2) := fun _ _ _ => rfl
theorem halt : ∀ x0, Statement (.halt x0) := fun _ => rfl
theorem commitComplete : Statement .commitComplete := rfl
theorem loadDataArrival : ∀ x0 x1, Statement (.loadDataArrival x0 x1) := fun _ _ => rfl
theorem groupAbortNotice : ∀ x0, Statement (.groupAbortNotice x0) := fun _ => rfl
theorem phaseBudget : Statement .phaseBudget := rfl
theorem lateTrapDelivery : Statement .lateTrapDelivery := rfl
theorem mmpFaultService : ∀ x0, Statement (.mmpFaultService x0) := fun _ => rfl
theorem pagerCompletion : ∀ x0, Statement (.pagerCompletion x0) := fun _ => rfl
theorem freezeLimit : Statement .freezeLimit := rfl
theorem pageMigrationStart : ∀ x0, Statement (.pageMigrationStart x0) := fun _ => rfl
theorem pageMigrationEnd : ∀ x0, Statement (.pageMigrationEnd x0) := fun _ => rfl
theorem clearingComplete : Statement .clearingComplete := rfl
theorem poolLinkLost : ∀ x0, Statement (.poolLinkLost x0) := fun _ => rfl
theorem poolPortRetrain : ∀ x0 x1, Statement (.poolPortRetrain x0 x1) := fun _ _ => rfl
theorem hostPortDown : Statement .hostPortDown := rfl
theorem hostCxlMemWrite : ∀ x0 x1, Statement (.hostCxlMemWrite x0 x1) := fun _ _ => rfl
theorem copyCommandComplete : ∀ x0, Statement (.copyCommandComplete x0) := fun _ => rfl
theorem copyCommandFault : ∀ x0 x1, Statement (.copyCommandFault x0 x1) := fun _ _ => rfl
theorem matrixOpPerform : Statement .matrixOpPerform := rfl
theorem mkatRun : Statement .mkatRun := rfl
theorem residencyLoadComplete : ∀ x0, Statement (.residencyLoadComplete x0) := fun _ => rfl
theorem residencyLoadFail : ∀ x0 x1, Statement (.residencyLoadFail x0 x1) := fun _ _ => rfl
theorem arrayError : ∀ x0, Statement (.arrayError x0) := fun _ => rfl
theorem compareModeRunEnd : ∀ x0, Statement (.compareModeRunEnd x0) := fun _ => rfl
theorem flitCrcFail : ∀ x0, Statement (.flitCrcFail x0) := fun _ => rfl
theorem linkTrainingResult : ∀ x0 x1, Statement (.linkTrainingResult x0 x1) := fun _ _ => rfl
theorem linkTrainingTimeout : ∀ x0, Statement (.linkTrainingTimeout x0) := fun _ => rfl
theorem packetRoute : ∀ x0, Statement (.packetRoute x0) := fun _ => rfl
theorem multipathFallback : ∀ x0, Statement (.multipathFallback x0) := fun _ => rfl
theorem fifowArrival : ∀ x0 x1, Statement (.fifowArrival x0 x1) := fun _ _ => rfl
theorem flow : ∀ x0 x1, Statement (.flow x0 x1) := fun _ _ => rfl
theorem orderedPacketReceipt : ∀ x0, Statement (.orderedPacketReceipt x0) := fun _ => rfl
theorem orderedAckReceipt : ∀ x0 x1, Statement (.orderedAckReceipt x0 x1) := fun _ _ => rfl
theorem rtoExpiry : ∀ x0, Statement (.rtoExpiry x0) := fun _ => rfl
theorem fabtmoExpiry : ∀ x0, Statement (.fabtmoExpiry x0) := fun _ => rfl
theorem remoteReplyData : ∀ x0 x1, Statement (.remoteReplyData x0 x1) := fun _ _ => rfl
theorem nakReceipt : ∀ x0 x1, Statement (.nakReceipt x0 x1) := fun _ _ => rfl
theorem openReceipt : ∀ x0, Statement (.openReceipt x0) := fun _ => rfl
theorem answerReceipt : ∀ x0 x1 x2, Statement (.answerReceipt x0 x1 x2) := fun _ _ _ => rfl
theorem connectionTimeout : ∀ x0 x1, Statement (.connectionTimeout x0 x1) := fun _ _ => rfl
theorem autoOpen : ∀ x0 x1, Statement (.autoOpen x0 x1) := fun _ _ => rfl
theorem brokenClose : ∀ x0 x1, Statement (.brokenClose x0 x1) := fun _ _ => rfl
theorem putPacketLanding : ∀ x0 x1 x2, Statement (.putPacketLanding x0 x1 x2) := fun _ _ _ => rfl
theorem messageAckReceipt : ∀ x0 x1 x2 x3, Statement (.messageAckReceipt x0 x1 x2 x3) := fun _ _ _ _ => rfl
theorem redPacketApply : ∀ x0 x1, Statement (.redPacketApply x0 x1) := fun _ _ => rfl
theorem getreqReceipt : ∀ x0, Statement (.getreqReceipt x0) := fun _ => rfl
theorem getDataLanding : ∀ x0 x1 x2 x3 x4, Statement (.getDataLanding x0 x1 x2 x3 x4) := fun _ _ _ _ _ => rfl
theorem collPacketReceipt : ∀ x0, Statement (.collPacketReceipt x0) := fun _ => rfl
theorem sourceReadComplete : ∀ x0, Statement (.sourceReadComplete x0) := fun _ => rfl
theorem barrierArrival : ∀ x0 x1, Statement (.barrierArrival x0 x1) := fun _ _ => rfl
theorem groupTableFill : ∀ x0 x1, Statement (.groupTableFill x0 x1) := fun _ _ => rfl
theorem queryAtHolder : ∀ x0, Statement (.queryAtHolder x0) := fun _ => rfl
theorem partialMerge : ∀ x0 x1 x2, Statement (.partialMerge x0 x1 x2) := fun _ _ _ => rfl
theorem resultRecordWrite : ∀ x0, Statement (.resultRecordWrite x0) := fun _ => rfl
theorem staleReport : ∀ x0, Statement (.staleReport x0) := fun _ => rfl
theorem attentionTimeout : ∀ x0, Statement (.attentionTimeout x0) := fun _ => rfl
theorem appendAtHolder : ∀ x0, Statement (.appendAtHolder x0) := fun _ => rfl
theorem appendComplete : ∀ x0 x1, Statement (.appendComplete x0 x1) := fun _ _ => rfl
theorem pmtWriteAtMember : ∀ x0 x1, Statement (.pmtWriteAtMember x0 x1) := fun _ _ => rfl
theorem rebalanceQuery : ∀ x0, Statement (.rebalanceQuery x0) := fun _ => rfl
theorem rebalanceApply : ∀ x0, Statement (.rebalanceApply x0) := fun _ => rfl
theorem rebalanceComplete : ∀ x0 x1, Statement (.rebalanceComplete x0 x1) := fun _ _ => rfl
theorem unitCopyComplete : ∀ x0 x1 x2, Statement (.unitCopyComplete x0 x1 x2) := fun _ _ _ => rfl
theorem tierInComplete : ∀ x0, Statement (.tierInComplete x0) := fun _ => rfl
theorem tierInFail : ∀ x0 x1, Statement (.tierInFail x0 x1) := fun _ _ => rfl
theorem tmCommandPerform : Statement .tmCommandPerform := rfl
theorem launchWordWrite : ∀ x0, Statement (.launchWordWrite x0) := fun _ => rfl
theorem dependenceWordWrite : ∀ x0, Statement (.dependenceWordWrite x0) := fun _ => rfl
theorem startTimeTest : Statement .startTimeTest := rfl
theorem priorityAgeing : Statement .priorityAgeing := rfl
theorem taskPlacement : Statement .taskPlacement := rfl
theorem saveComplete : Statement .saveComplete := rfl
theorem emergencyAreaDrain : Statement .emergencyAreaDrain := rfl
theorem starveCountExpiry : Statement .starveCountExpiry := rfl
theorem gangForm : Statement .gangForm := rfl
theorem gangRejoin : Statement .gangRejoin := rfl
theorem streamIdleExpiry : ∀ x0, Statement (.streamIdleExpiry x0) := fun _ => rfl
theorem streamEvictionComplete : ∀ x0, Statement (.streamEvictionComplete x0) := fun _ => rfl
theorem streamLoadComplete : ∀ x0, Statement (.streamLoadComplete x0) := fun _ => rfl
theorem devtimeWrite : ∀ x0, Statement (.devtimeWrite x0) := fun _ => rfl
theorem ppsEdge : Statement .ppsEdge := rfl
theorem devtimeSlewEnd : Statement .devtimeSlewEnd := rfl
theorem ecclogClear : Statement .ecclogClear := rfl
theorem linklogClear : Statement .linklogClear := rfl
theorem haltmaskClear : ∀ x0 x1, Statement (.haltmaskClear x0 x1) := fun _ _ => rfl
theorem culletClear : ∀ x0, Statement (.culletClear x0) := fun _ => rfl
theorem routecfgVerWrite : ∀ x0, Statement (.routecfgVerWrite x0) := fun _ => rfl
theorem routecfgDropClear : Statement .routecfgDropClear := rfl
theorem rtdatWrite : ∀ x0, Statement (.rtdatWrite x0) := fun _ => rfl
theorem sctcfgWrite : ∀ x0, Statement (.sctcfgWrite x0) := fun _ => rfl
theorem lwaddrWrite : ∀ x0 x1, Statement (.lwaddrWrite x0 x1) := fun _ _ => rfl
theorem hbmWordTransfer : ∀ x0, Statement (.hbmWordTransfer x0) := fun _ => rfl
theorem laneSwapComplete : ∀ x0 x1, Statement (.laneSwapComplete x0 x1) := fun _ _ => rfl
theorem powerOnBoot : ∀ x0, Statement (.powerOnBoot x0) := fun _ => rfl
theorem bootRecordClear : ∀ x0, Statement (.bootRecordClear x0) := fun _ => rfl
theorem voltageAlarm : Statement .voltageAlarm := rfl
theorem clockAlarm : Statement .clockAlarm := rfl
theorem temperatureAlarm : Statement .temperatureAlarm := rfl
theorem lidMeshAlarm : Statement .lidMeshAlarm := rfl
theorem mailboxNonceWrite : ∀ x0, Statement (.mailboxNonceWrite x0) := fun _ => rfl
theorem attestationReportReady : Statement .attestationReportReady := rfl
theorem clockStepDown : Statement .clockStepDown := rfl
theorem clockStepUp : Statement .clockStepUp := rfl
theorem poolBackInvalidation : ∀ x0, Statement (.poolBackInvalidation x0) := fun _ => rfl
theorem mmpServiceRequest : ∀ x0, Statement (.mmpServiceRequest x0) := fun _ => rfl
theorem hostPortRetrain : ∀ x0, Statement (.hostPortRetrain x0) := fun _ => rfl
theorem linkPartnerLost : ∀ x0, Statement (.linkPartnerLost x0) := fun _ => rfl
theorem idleFlitReceipt : ∀ x0 x1 x2 x3, Statement (.idleFlitReceipt x0 x1 x2 x3) := fun _ _ _ _ => rfl
theorem gixImageLoad : ∀ x0 x1 x2, Statement (.gixImageLoad x0 x1 x2) := fun _ _ _ => rfl

end Sys2Proof.Laws.Encodes
end

