-- ==== Sys2Proof/Tests/Slice0.lean ====
section
/-! SUPPORT. Tests of the model: words and values that the spec writes out, an ill-formed slot for each check, and for each
statement with hypotheses a machine and operands that meet them. -/

open Sys2Proof Sys2Proof.Machine

namespace Sys2Proof.Tests

-- one test after another, so that their threads do not stand in memory side by side
set_option Elab.async false

/-! ## Small machines -/

/-- A supervisor's context is resident and nothing else stands in the machine. -/
def up : State := { State.reset with c := { Ctx.empty with live := true, id := { Ident.none with sup := true } } }

/-- The same in user mode. -/
def user : State := { State.reset with c := { Ctx.empty with live := true } }

def regs (l : List (Reg × W64)) (s : State) : State := l.foldl (fun s p => s.withA { s.c.a with s := s.c.a.s.set p.1 p.2 }) s
def vregs (l : List (Reg × VWord)) (s : State) : State := l.foldl (fun s p => s.withA { s.c.a with v := s.c.a.v.set p.1 p.2 }) s
def preds (l : List (Reg × LaneMask)) (s : State) : State := l.foldl (fun s p => s.withA (writePred s.c.a p.1 p.2 false)) s
def fmtIs (x : W64) (s : State) : State := s.withA { s.c.a with fmt := x }
def literal (p : BitVec 28) (s : State) : State := { s with grp := { s.grp with lit := some p } }

/-- Link 0 is up, its lease held, with 64 words in its receive queue. -/
def linked (s : State) : State :=
  let s := s.withC { s.c with id := { s.c.id with lease := true } }
  let s := s.withPkg { s.pkg with links := s.pkg.links.set 0 { s.pkg.links[(0 : Fin 6)] with conn := true, state := .up } }
  s.withCore { s.core with recv := s.core.recv.set 0 ⟨List.replicate 64 7, 0⟩ }

/-- Offset 0 on of spaces 0 and 4 lie at physical address 0, and of spaces 2 and 3 in the pool and the host. -/
def mapped (s : State) : State :=
  let s := s.withA { s.c.a with pmsize := 0x10000 }
  s.withPkg { s.pkg with
    poolUp := Vector.replicate 2 true
    tlb := [⟨0, 0, 0, 0, 34, 0x12F, 0⟩, ⟨0, 4, 0, 0, 34, 0x12F, 0⟩, ⟨0, 2, 0, 0, 34, 0x200000000012F, 0⟩,
      ⟨0, 3, 0, 0, 34, 0x300000000012F, 0⟩] }

/-- A plain and a phased region of AS, and a plain one of CB. -/
def regioned (s : State) : State :=
  s.withC { s.c with regions := [⟨1, false, 0, 0x20000, false, false⟩, ⟨2, false, 0x20000, 0x10000, true, false⟩,
    ⟨3, true, 0, 0x20000, false, false⟩] }

/-- What the machine is after an instruction, or the reset machine where it stops. -/
def after (i : Instr) (s : State) : State :=
  match exec i s with | .next t => t | .fault _ => State.reset | .refused _ => State.reset
def effects (i : Instr) (s : State) : List Eff := (after i s).c.pend.map (·.eff)
def trapOf (i : Instr) (s : State) : Option Cause := (after i s).grp.trap.map (·.1)
def okay {α : Type} (x : Res α) : Bool := match x with | .ok _ => true | .error _ => false

def nonced : State := up.withPkg { up.pkg with boot := { up.pkg.boot with nonce := some 9 } }

/-! ## Decoding: words that the spec writes out (R26 to R37, chapters 4 to 14) -/

def reads (w : Nat) (i : Instr) : Bool := decodeTableWord 32 w = some i

/-- R26, R28: `add s2, s3, s1`, its A operand the literal's. -/
theorem test_decode_add : reads 0x00083069 (.add 2 (.reg 3) (.reg 1) .lit) = true := by decide
theorem test_decode_scalar : reads 0x00401076 (.sub 0 (.reg 1) (.reg 1) .one) = true := by decide
theorem test_decode_load : reads 0x09804228 (.ldw 0 (.reg 4) (.reg 8) .zero) = true := by decide
theorem test_decode_atomic : reads 0x0C242281 (.atomAdd .rel .pkg (.reg 2) (.reg 10) (.reg 1)) = true := by decide
theorem test_decode_sysreg : reads 0x0E015A68 (.sysRd 0 (.reg 21) .lit) = true ∧ reads 0x0E400A45 (.sysWr 0 .lit (.reg 5)) = true
    ∧ reads 0x0E802A00 (.timeRd 0 (.reg 2) false) = true := by decide
theorem test_decode_vector : reads 0x10805062 (.vmul 0 false (.reg 5) (.reg 1) (.latch 2)) = true
    ∧ reads 0x10023083 (.vadd 0 false (.latch 3) (.reg 2) (.reg 3)) = true
    ∧ reads 0x10410429 (.vsub 0 false (.reg 16) (.reg 16) .lit) = true
    ∧ reads 0x1080C2D9 (.vmul 0 false (.reg 12) (.reg 11) (.reg 25)) = true := by decide
theorem test_decode_convert : reads 0x1A004093 (.vcvt 0 false (.reg 4) (.reg 2) 1 .e4m3) = true
    ∧ reads 0x19003040 (.vred 0 false (.reg 3) (.reg 1) .add) = true := by decide
theorem test_decode_group : reads 0x1E408303 (.vsmrg 8 12 3) = true
    ∧ reads 0x1E803140 (.vlgsz 0 false 3 (.reg 5) false) = true := by decide
theorem test_decode_branch : reads 0x40C0FFF8 (.loop 0 0xFFF8) = true ∧ reads 0x40C20000 (.loop 1 0) = true
    ∧ reads 0x41000028 (.lset 0 0 (.reg 0)) = true ∧ reads 0x408007A8 (.jr 0 0 (.reg 30) .zero) = true
    ∧ reads 0x4040FFEC (.jal 0 false 0xFFEC) = true := by decide
theorem test_decode_task : reads 0x45000A02 (.phase .pkg) = true ∧ reads 0x48400A28 (.texit 0) = true
    ∧ reads 0x48000136 (.tspawn 0 (.reg 4) .one) = true ∧ reads 0x48C00A01 (.rfe true) = true
    ∧ reads 0x49000A02 (.fuse 0 .w4) = true := by decide
theorem test_decode_matrix : reads 0xA0000003 (.mcall 3) = true ∧ reads 0x214A1080 (.mmac 1 2 128 true) = true := by decide
theorem test_decode_copy : reads 0x30002810 (.cpSrc 0 0 false (.reg 10) (.reg 1)) = true
    ∧ reads 0x30402E80 (.cpDst 0 0 false (.reg 11) .zero) = true
    ∧ reads 0x3100136C (.cpGo 0 0 false false true true (.reg 4) .one) = true := by decide
theorem test_decode_residency : reads 0x34001020 (.resAlloc 0 4 (.reg 2)) = true
    ∧ reads 0x34801680 (.resPin 0 (.reg 5)) = true := by decide
theorem test_decode_remote : reads 0x36411050 (.rmaPut 0 true (.reg 4) (.reg 5)) = true
    ∧ reads 0x38801282 (.chRed 0 true (.reg 4)) = true ∧ reads 0x39411070 (.chWait 0 .lr false (.reg 4) (.reg 7)) = true := by decide
theorem test_decode_attention : reads 0x3A001051 (.atQ 0 true false false (.reg 4) (.reg 5)) = true
    ∧ reads 0x3B401870 (.pxHash 0 6 (.reg 7)) = true ∧ reads 0x3C812091 (.tierIn 0 1 true (.reg 8) (.reg 9)) = true := by decide
theorem test_decode_token : reads 0x3E001050 (.tmMatch 0 false 4 (.reg 5)) = true
    ∧ reads 0x3E401852 (.tmMerge 0 false true (.reg 6) (.reg 5)) = true
    ∧ reads 0x3E801870 (.tmUnmrg 0 false (.reg 6) (.reg 7)) = true := by decide

/-- R55: a pad's payload is zero; R27: unit code 6 is reserved. -/
theorem test_decode_refuses : decodeTableWord 32 0x70000000 = none ∧ decodeTableWord 32 0x70000001 = none
    ∧ decodeTableWord 32 0x60000000 = none ∧ decodeTableWord 32 0x0FC00000 = none := by decide

/-! ## Ill-formed slots, one for each check -/

/-- R54: p0 is no destination of a compare or of a predicate operation. -/
theorem test_wf_predicate : (Instr.ceq 0 0 .zero .zero).wf = false ∧ (Instr.vceq 0 false 0 .zero .zero).wf = false
    ∧ (Instr.pset 0 true).wf = false ∧ (Instr.pset 1 true).wf = true := by decide
/-- R30: a C slot pops no FIFO. -/
theorem test_wf_fifo : (Instr.chSend 0 false (.fifo 2)).wf = false ∧ (Instr.chSend 0 false (.reg 2)).wf = true := by decide
/-- R83: vcvt has no E2M1, INT4 or SP2 destination; R89: vupk of 16-bit parts has two of them. -/
theorem test_wf_formats : (Instr.vcvt 0 false (.reg 0) .zero 0 .int4).wf = false
    ∧ (Instr.vupk 0 false (.reg 0) .zero true false 2).wf = false := by decide
/-- R365: vsmrg groups of 1 to 5 registers do not pass v31. -/
theorem test_wf_group : (Instr.vsmrg 0 8 0).wf = false ∧ (Instr.vsmrg 0 8 6).wf = false ∧ (Instr.vsmrg 30 0 3).wf = false
    ∧ (Instr.vsmrg 29 0 3).wf = true := by decide
theorem test_wf_matrix : (Instr.mend true 1).wf = false ∧ (Instr.mdrain 0 0 5 false).wf = false
    ∧ (Instr.mdrain 0 1 0 false).wf = false ∧ (Instr.madd 0 1 false 0).wf = false := by decide
theorem test_wf_unused : (Instr.cpSrc 0 0 true (.reg 1) .zero).wf = false ∧ (Instr.cpGo 0 0 false false false false (.reg 1) .zero).wf = false
    ∧ (Instr.kvApp 0 false false .zero (.reg 1)).wf = false ∧ (Instr.tierIn 0 0 false .zero (.reg 1)).wf = false := by decide
theorem test_wf_fence : (Instr.fence 0 false false).wf = false := by decide
/-- A packet of a kind, with nothing in it. -/
def packet (kind : Nat) : Packet := ⟨kind, 0, false, false, 0, 0, 0, 0, 0, 0, 0, 0, 0, 0, 0, 0, false, []⟩
theorem test_wf_event : (Instr.packetRoute (packet 15)).wf = false ∧ (Instr.packetRoute (packet 6)).wf = true
    ∧ (Instr.hbmWordTransfer ⟨0, [[2048]], [], true⟩).wf = false ∧ (Instr.linkTrainingResult 0 33).wf = false := by decide

/-! ## Values that the spec states -/

/-- R104: (2^63 − 2) + 5 saturates at 2^63 − 1, 5 groups' worth nothing else; x / 0 = −1 and x rem 0 = x. -/
theorem test_addsat : effects (.addsat 0 (.reg 3) (.reg 1) (.reg 2)) (regs [(1, 0x7FFFFFFFFFFFFFFE), (2, 5)] up)
    = [.s 3 0x7FFFFFFFFFFFFFFF false] := by decide
theorem test_div_by_zero : effects (.div 0 (.reg 3) (.reg 1) .zero) (regs [(1, 9)] up) = [.s 3 0xFFFFFFFFFFFFFFFF false]
    ∧ effects (.rem 0 (.reg 3) (.reg 1) .zero) (regs [(1, 9)] up) = [.s 3 9 false] := by decide
/-- R104: the quotient of −7 by 2 is cut towards 0 and the remainder has the dividend's sign. -/
theorem test_div_signs : effects (.div 0 (.reg 3) (.reg 1) (.reg 2)) (regs [(1, -7), (2, 2)] up) = [.s 3 (-3) false]
    ∧ effects (.rem 0 (.reg 3) (.reg 1) (.reg 2)) (regs [(1, -7), (2, 2)] up) = [.s 3 (-1) false] := by decide
theorem test_mulh : effects (.mulh 0 (.reg 3) .mone .one) up = [.s 3 0xFFFFFFFFFFFFFFFF false]
    ∧ effects (.mulhu 0 (.reg 3) .mone .mone) up = [.s 3 0xFFFFFFFFFFFFFFFE false] := by decide
/-- R104: shifts use the low six bits of b. -/
theorem test_shift_count : effects (.shl 0 (.reg 3) .one (.reg 1)) (regs [(1, 65)] up) = [.s 3 2 false]
    ∧ effects (.sar 0 (.reg 3) (.reg 2) (.reg 1)) (regs [(1, 4), (2, -16)] up) = [.s 3 (-1) false]
    ∧ effects (.rotl 0 (.reg 3) (.reg 2) .one) (regs [(2, 0x8000000000000000)] up) = [.s 3 1 false] := by decide
/-- R106: the descriptor 528 yields byte 2; p = 60 and w = 8 extract bits 63 to 60 only. -/
theorem test_bfx : effects (.bfx 0 (.reg 2) (.reg 1) .lit) (literal 528 (regs [(1, 0x1122334455667788)] up)) = [.s 2 0x66 false]
    ∧ effects (.bfx 0 (.reg 2) (.reg 1) .lit) (literal 572 (regs [(1, 0xF122334455667788)] up)) = [.s 2 0xF false] := by decide
theorem test_bfi_sext : effects (.bfi 0 2 (.reg 1) .lit) (literal 528 (regs [(1, 0xAB), (2, -1)] up))
      = [.s 2 0xFFFFFFFFFFABFFFF false]
    ∧ effects (.sext 0 (.reg 1) (.reg 2) .lit) (literal 31 (regs [(2, 0x80000000)] up)) = [.s 1 0xFFFFFFFF80000000 false] := by decide
theorem test_counts : effects (.clz 0 (.reg 1) .one) up = [.s 1 63 false] ∧ effects (.ctz 0 (.reg 1) .zero) up = [.s 1 64 false]
    ∧ effects (.popc 0 (.reg 1) .mone) up = [.s 1 64 false] := by decide
/-- R107: a signed and an unsigned comparison of −1 and 1. -/
theorem test_compare : effects (.clt 0 1 .mone .one) up = [.p 1 (BitVec.allOnes 64) false]
    ∧ effects (.cltu 0 1 .mone .one) up = [.p 1 0 false] := by decide
/-- R113: p1 true in lanes 0 to 2, p2 in lanes 0 to 31. -/
theorem test_pall_pany : effects (.pall 3 1 2) (preds [(1, 7), (2, 0xFFFFFFFF)] up) = [.p 3 0 false]
    ∧ effects (.pany 4 1 2) (preds [(1, 7), (2, 0xFFFFFFFF)] up) = [.p 4 (BitVec.allOnes 64) false] := by decide
/-- R98: a branch on p1 of 7 lanes is not uniform. -/
theorem test_nonuniform : trapOf (.br 1 false 4) (preds [(1, 7)] up) = some .nonuniformBranch := by decide
/-- R251: mret and mloop outside a routine. -/
theorem test_mret_traps : trapOf .mret up = some .illegal ∧ trapOf (.mloop 0 0xFFFF) up = some .illegal := by decide
/-- R413: halt is a supervisor's. -/
theorem test_halt_priv : trapOf (.halt 0) user = some .priv := by decide
/-- R34: a slot whose guard is off does nothing. -/
theorem test_guard_off : after (.add 1 (.reg 3) .one .one) up = up := by decide +kernel
/-- R92: writes of s31 go to a register like any other, and `add` waits one group. -/
theorem test_add_due : (after (.add 0 (.reg 31) .one .one) up).c.pend = [⟨1, .s 31 2 false⟩] := by decide
/-- R129: lane 0 holds 2^24, lanes 1 and 33 hold 1.0; the tree gives 16,777,218 in every lane and sets no flag. -/
def treeInput : VWord := ofLanes (fun i => if i = 0 then 0x4B800000 else if i = 1 ∨ i = 33 then 0x3F800000 else 0)
theorem test_vred : effects (.vred 0 false (.reg 2) (.reg 1) .add) (vregs [(1, treeInput)] up)
    = [.v 2 (ofLanes (fun _ => 0x4B800001)) false] := by decide +kernel
/-- R116: 1.5 + 2.25 = 3.75 in every lane of the default format, FP32. -/
theorem test_vadd : effects (.vadd 0 false (.reg 2) (.reg 1) (.reg 3)) (vregs [(1, ofLanes (fun _ => 0x3FC00000)),
      (3, ofLanes (fun _ => 0x40100000))] up) = [.v 2 (ofLanes (fun _ => 0x40700000)) false] := by decide +kernel
/-- R364: salt 0 and a block of sixteen 1s, then one of sixteen 2s. -/
theorem test_px_hash : hashBlock 0 (List.replicate 16 1) = 0x0000009800000088
    ∧ (hashBlock 0x0000009800000088 (List.replicate 16 2)) = 0x00884DB800880198 := by decide
/-- R426: symbol 18 of the word at 0x21_4012_0400 is corrected and logged. -/
theorem test_ecclog : (after (.hbmWordTransfer ⟨0x2140120400, [], [18], true⟩) up).pkg.hbm.ecclog = 0x8001085004810092 := by decide
/-- R426, R433: lane 150 of stack 2 fails parity three times; the third retry waits for the swap, which then shows in LANEMAP. -/
theorem test_linklog : let t := after (.hbmWordTransfer ⟨0x2140120C00, [[150], [150], [150]], [], true⟩) up
    t.pkg.hbm.linklog = 0x8003425840000000 ∧ t.pkg.hbm.lanemap = 0
      ∧ (after (.laneSwapComplete 2 2) t).pkg.hbm.lanemap = 0x0000000000040000 := by decide
/-- FIPS 180-4's example of one block, "abc"; twice the base point of P-256 (FIPS 186-5's curve). -/
theorem test_sha256 : sha256 [0x61, 0x62, 0x63] = 0xba7816bf8f01cfea414140de5dae2223b00361a396177a9cb410ff61f20015ad := by
  decide +kernel
theorem test_p256 : onCurve p256G = true
    ∧ (p256Mul 2 2 (some p256G)).map Prod.fst = some 0x7cf27b188d034f7e8a52380304b51ac3c08969e277f21b35a60b48fc47669978 := by
  decide +kernel
/-- R421: the boot record lies at offset 0 of BAR0; other offsets read as zero and ignore writes. -/
theorem test_bar0 : bar0Byte 0x80 up = 0 ∧ bar0Byte 0x4000 nonced = 0 ∧ bar0Byte 0x100 nonced = 9
    ∧ bar0Write 0x200 (List.replicate 32 1) up = up := by
  decide +kernel
/-- R403, R415: an illegal trap from group 0x100 with TRVEC valid at 0x2000. -/
def trappable (s : State) : State := { s.withA { s.c.a with trvec := 0x2001 } with grp := { s.grp with pc := 0x100, idx := 2 } }
theorem test_trap_entry : let t := after .mret (trappable up)
    t.c.a.trpc = 0x100 ∧ t.c.a.trmask = 4 ∧ t.c.a.inh = true ∧ t.c.a.pc = 0x2000 ∧ t.c.a.trcause = 1 := by decide
/-- R42, R403: the step from reset with a slot placed. -/
def stepWith (w : Nat) : State :=
  match step (State.reset.withFetchWord 32 w) with | .next t => t | .fault _ => State.reset | .refused _ => State.reset
theorem test_step : (stepWith 0x00401076).c.pend = [⟨1, .s 1 0xFFFFFFFFFFFFFFFF false⟩] ∧ (stepWith 0x00401076).c.gc = 1 := by
  decide +kernel

/-! ## For each statement with hypotheses, a machine and operands that meet them -/

/-- Operands of each kind can be read and destinations of each kind written: registers, a FIFO with its last word, a literal. -/
theorem witness_ScalarArithmeticResults :
    (guardOn 0 up = true ∧ canRead2 (.reg 1) (.reg 31) up = true ∧ canWrite (.reg 31) (after2 (.reg 1) (.reg 31) up) = true)
      ∧ (guardOn 15 (preds [(15, BitVec.allOnes 64)] up) = true)
      ∧ canRead2 (.fifo 0) (.fifo 0) (linked up) = true ∧ canWrite (.fifo 0) (after2 (.fifo 0) (.fifo 0) (linked up)) = true
      ∧ canRead2 .lit .ident (literal 5 up) = true ∧ canWrite (.latch 7) (after2 .lit .ident (literal 5 up)) = true := by decide
theorem witness_ScalarFieldResults :
    guardOn 0 up = true ∧ canRead (.reg 1) up = true ∧ canWrite (.reg 2) (afterRead (.reg 1) up) = true
      ∧ canRead2 (.reg 1) .zero up = true ∧ canWrite (.reg 2) (after2 (.reg 1) .zero up) = true ∧ awaits up.c (.reg 31) = false := by
  decide
theorem witness_ScalarCompareResults :
    guardOn 0 up = true ∧ canRead2 .mone (.reg 31) up = true ∧ guardOn 3 (preds [(3, 0)] up) = false ∧ (31 : Reg) ≠ 0 := by decide
theorem witness_TransferResults :
    predUniform up.c 0 = true ∧ predUni up.c 0 = true ∧ predUniform (preds [(1, 7)] up).c 1 = false
      ∧ predUniform up.c 31 = true ∧ predUni up.c 31 = false ∧ awaits up.c (.reg 30) = false
      ∧ guardOn 0 up = true ∧ canRead2 (.reg 30) .zero up = true ∧ canRead (.reg 1) up = true
      ∧ (up.c.a.lc[(0 : Fin 4)]).toNat ≤ 1 ∧ 1 < ((up.withA { up.c.a with lc := Vector.replicate 4 2 }).c.a.lc[(3 : Fin 4)]).toNat := by
  decide
theorem witness_VectorElementResults :
    vGuard 0 up ≠ 0 ∧ canRead2V (.reg 0) (.reg 31) up = true ∧ canWriteV (.reg 31) (after2V (.reg 0) (.reg 31) up) = true
      ∧ canReadV (.fifo 0) (linked up) = true ∧ canWriteV (.fifo 0) (afterReadV (.fifo 0) (linked up)) = true
      ∧ vtOf up.c.a.fmt ∈ classF ∧ vtOf up.c.a.fmt ∈ classE ∧ vtOf (fmtIs 7 up).c.a.fmt ∈ classI ∧ isSto up.c.a.fmt = false := by
  decide
theorem witness_VectorFusedResults :
    vGuard 0 up ≠ 0 ∧ canRead2V (.reg 0) (.reg 31) up = true ∧ awaitsV up.c (.reg 31) = false ∧ vtOf up.c.a.fmt ∈ classF
      ∧ vtOf (fmtIs 9 up).c.a.fmt ∈ [Fmt.int8, .uint8, .int16] := by decide
theorem witness_VectorMoveResults :
    vGuard 0 up ≠ 0 ∧ canRead2V (.reg 0) (.reg 31) up = true ∧ canWriteV (.latch 7) (after2V (.reg 0) (.reg 31) up) = true
      ∧ canReadV (.reg 1) up = true ∧ canRead .one (afterReadV (.reg 1) up) = true ∧ canRead2 .one .mone up = true
      ∧ awaitsV up.c (.reg 31) = false
      ∧ (vGuard 0 up).getLsbD (laneOf (vtOf up.c.a.fmt) 63) = true
      ∧ (vGuard 1 (preds [(1, 1)] up)).getLsbD (laneOf (vtOf up.c.a.fmt) 63) = false := by decide
theorem witness_VectorCompareResults :
    vGuard 7 (preds [(7, 1)] up) ≠ 0 ∧ canRead2V (.reg 0) .zero (preds [(7, 1)] up) = true
      ∧ vtOf (preds [(7, 1)] up).c.a.fmt ∈ classF ++ class8 := by decide
theorem witness_VectorReductionResults :
    vGuard 0 up ≠ 0 ∧ canReadV (.reg 31) up = true ∧ canWriteV (.reg 0) (afterReadV (.reg 31) up) = true
      ∧ vtOf up.c.a.fmt ∈ classF ++ classI ∧ canWriteV (.latch 0) up = true := by decide
theorem witness_ConversionResults :
    guardOn 0 up = true ∧ vGuard 0 up ≠ 0 ∧ canRead2 .zero .mone up = true ∧ canWrite (.reg 1) up = true
      ∧ canReadV (.reg 1) up = true ∧ canWriteV (.reg 2) (afterReadV (.reg 1) up) = true
      ∧ canRead2V (.reg 1) (.reg 2) up = true ∧ canWriteV (.reg 2) (after2V (.reg 1) (.reg 2) up) = true
      ∧ vtOf up.c.a.fmt ∈ classF ++ class8 ∧ kindOf (vtOf up.c.a.fmt) = .fp fpFP32 ∧ widthOf (vtOf (fmtIs 1 up).c.a.fmt) ∈ [8, 16]
      ∧ isSto up.c.a.fmt = false := by decide
theorem witness_TranslationResults :
    (tlbFind (mapped up).pkg.tlb (asidOf (mapped up).c.a) 0 0).isSome = true
      ∧ permits .write false 0x12F = true ∧ paExists (leafPa 0x12F 34 0) = true ∧ severed (mapped up).pkg 0 = false
      ∧ permits .write true 0x103 = false ∧ severed up.pkg 0x2000000000000 = true
      ∧ tlbFind up.pkg.tlb (asidOf up.c.a) 0 0 = none
      ∧ (match walkRoot up.pkg.mem (rootOf up.c.a 0) 0 with | .missing _ _ => true | .leaf _ _ => false) = true
      ∧ okay (Sys2Proof.Machine.paOf 0 .read 0 (mapped up)) = true ∧ user.c.id.sup = false ∧ up.c.id.sup = true := by decide
theorem witness_ScalarLoadResults :
    let s := mapped up
    let far := s.withPkg { s.pkg with fab := { s.pkg.fab with ext := 0x111 } }
    guardOn 0 s = true ∧ canRead2 .zero .zero s = true ∧ addressOk true 0 s = true
      ∧ okay (Sys2Proof.Machine.paOf 0 .read 0 s) = true ∧ okay (Sys2Proof.Machine.paOf 2 .read 0x2000000000000000 s) = true
      ∧ okay (Sys2Proof.Machine.paOf 4 .read 0xFFF8 s) = true ∧ canWrite (.fifo 0) (linked s) = true
      ∧ addressOk true 0x4000000000000000 s = false ∧ addressOk true 0x0001000000000000 s = false
      ∧ addressOk true 0x1000000000000000 far = true ∧ okay (remoteRoom 0 32 false false false far) = true
      ∧ fieldOf s.c.a.pmsize 47 16 * 2 ^ 16 < 0x10000 + 8 := by decide
theorem witness_ScalarStoreResults :
    let s := mapped up
    guardOn 0 s = true ∧ canRead2 (.reg 1) .zero s = true ∧ awaits s.c (.reg 31) = false ∧ addressOk true 0 s = true
      ∧ okay (Sys2Proof.Machine.paOf 0 .write 0 s) = true ∧ okay (Sys2Proof.Machine.paOf 4 .write 0xFFF8 s) = true
      ∧ (sectors (s.c.buf ++ [.store (cellsAt 0 [1])])).length ≤ 512 ∧ remoteItems s.c.buf < 128
      ∧ 128 ≤ remoteItems (s.withC { s.c with buf := List.replicate 128 (.remote 0 0 []) }).c.buf := by decide +kernel
/-- Bytes in the first n sectors. -/
def spread (n : Nat) : Cells := (List.range n).map (fun i => (128 * i, 1))
theorem sectors_spread (n : Nat) : sectors [.store (spread n)] = (List.range n).reverse := by
  simp only [sectors, spread, List.foldl_cons, List.foldl_nil]
  induction n with
  | zero => rfl
  | succ n ih => rw [List.range_succ, List.map_append, List.foldl_append, ih]; simp
/-- Its clause of a 513th sector. -/
theorem witness_ScalarStoreResults_full : 512 < (sectors (State.reset.c.buf ++ [.store (spread 513)])).length := by
  show 512 < (sectors [.store (spread 513)]).length
  rw [sectors_spread]; simp
theorem witness_AtomicResults :
    let s := mapped up
    canRead2 .zero .one s = true ∧ addressOk true 0 s = true ∧ okay (Sys2Proof.Machine.paOf 0 .both 0 s) = true
      ∧ canWrite (.reg 1) s = true ∧ awaits s.c (.reg 1) = false ∧ okay (remoteRoom 0 32 false true false s) = true := by decide
/-- A load of one byte, an atomic, a read-only load and a remote load are outstanding. -/
def waiting : State :=
  let op (k : MKind) : MemOp := memOp k (.scalar (.reg 1)) false false up
  up.withC { up.c with ops := [op (.load [(0, .mem 0)]), op (.atom .cas 8 1 0), op (.loadRo [(0, .mem 0)] 0 0), op (.remoteLoad 5 0 [(0, .mem 0)]),
    op (.remoteAtom 5 8 .add 1 0)] }
theorem witness_DataArrivalResults :
    (∀ k : Fin 3, ∃ o, waiting.c.ops[k.val]? = some o ∧ mayPerform waiting k.val o = true ∧ o.places.any (poisoned waiting.pkg) = false)
      ∧ (∃ o, waiting.c.ops[3]? = some o ∧ o.isLocal = false) := by decide
theorem witness_VectorMemoryResults :
    let s := mapped up
    vGuard 0 s ≠ 0 ∧ canRead2 .zero .zero s = true ∧ okay (vecSpace false (vGuard 0 s) 0 s) = true
      ∧ okay (vecSpace true (vGuard 0 s) 0xFF00 s) = true ∧ okay (lanePas 0 .read 0 (lanesOf (vGuard 0 s)) s) = true
      ∧ canWriteV (.reg 0) s = true ∧ awaitsV s.c (.reg 31) = false ∧ okay (lanePas 0 .write 0 (lanesOf (vGuard 0 s)) s) = true
      ∧ okay (remoteRoom 0 256 false false false s) = true ∧ remoteItems s.c.buf < 128 := by decide
theorem witness_TypedBufferResults :
    let s := regioned up
    vGuard 0 s ≠ 0 ∧ canRead2 .zero .zero s = true ∧ okay (laneRegion false (vGuard 0 s) 0x2FF00 s) = true
      ∧ okay (laneRegion true (vGuard 0 s) 0 s) = true ∧ okay (laneRegion false (vGuard 0 s) 0x30000 s) = false
      ∧ unitBusy s.c = false ∧ s.c.raced = false ∧ canWriteV (.reg 0) s = true ∧ awaitsV s.c (.reg 0) = false
      ∧ okay (behindSource true [(0, 1)] s) = true
      ∧ onTile { s.c with a := { s.c.a with opens := [(0, 256)] } } 252 4 = true := by decide
/-- The 64 bytes of a tensor-table entry of rank 1: 64 elements of 4 bytes. -/
def tensorImage (desc base bufsz : Nat) : List Byte :=
  bytesOf 8 desc ++ bytesOf 8 base ++ bytesOf 4 64 ++ bytesOf 4 1 ++ bytesOf 4 1 ++ bytesOf 4 1 ++ bytesOf 4 4 ++ bytesOf 12 0
    ++ bytesOf 4 0 ++ bytesOf 4 bufsz ++ bytesOf 8 0
/-- Tensors 1 in global space, 2 in AS plain, 3 in AS phased, 4 in CB, 7 in AS but in no region; 5 has an element size that vgat does not take, 6 fewer
elements than lanes. -/
def tensored (s : State) : State := s.withC { s.c with tdefs := [(1, tensorImage 0x10201 0 0), (2, tensorImage 0x10203 0 0x20000),
  (3, tensorImage 0x1020B 0x20000 0x10000), (4, tensorImage 0x10205 0 0x20000), (5, tensorImage 0x10301 0 0),
  (7, tensorImage 0x10203 0x40000 0x100), (6, bytesOf 16 0x10201 ++ bytesOf 4 8 ++ (tensorImage 0x10201 0 0).drop 20)] }
def isTrap (x : Res α) (c : Cause) : Bool := match x with | .error (.trap d _) => d = c | .error _ => false | .ok _ => false
theorem witness_GatherScatterResults :
    let s := tensored (regioned (mapped up))
    let x := vectorOf .uint32 .ident s
    vGuard 0 s ≠ 0 ∧ canReadV .ident s = true ∧ canRead .one s = true ∧ canWriteV (.reg 1) s = true ∧ awaitsV s.c (.reg 2) = false
      ∧ okay (tensorEntry 5 s) = true ∧ (tensorOf (tensorImage 0x10301 0 0)).esz = 3
      ∧ (tensorOf (bytesOf 16 0x10201 ++ bytesOf 4 8 ++ (tensorImage 0x10201 0 0).drop 20)).inBounds (coords 1 (lane x 8)) = false
      ∧ okay (gatherPlaces .read false 1 x (vGuard 0 s) s) = true ∧ okay (gatherPlaces .write true 1 x (vGuard 0 s) s) = true
      ∧ okay (gatherPlaces .read false 4 x (vGuard 0 s) s) = true ∧ okay (gatherPlaces .write true 3 x (vGuard 0 s) s) = true
      ∧ okay (placePas .read [(0, .va 0)] s) = true ∧ okay (tensorEntry 7 s) = true
      ∧ (lanesOf (vGuard 0 s)).all (fun i => (tensorOf (tensorImage 0x10203 0x40000 0x100)).inBounds (coords 1 (lane x i))) = true
      ∧ okay (lanePlaces (tensorOf (tensorImage 0x10203 0x40000 0x100)) 7 .read x (lanesOf (vGuard 0 s)) s) = true
      ∧ placeRegion s.c.regions false 4 (.as 0x40000) = none ∧ unitBusy s.c = false ∧ s.c.raced = false := by decide +kernel
theorem witness_PhaseEndResults :
    guardOn 0 up = true ∧ up.c.a.inh = false ∧ (up.withA { up.c.a with inh := true }).c.a.inh = true ∧ user.c.id.sup = false
      ∧ up.c.id.sup = true ∧ matrixBefore up = false ∧ up.c.a.opens = [] ∧ (up.withA { up.c.a with opens := [(0, 256)] }).c.a.opens ≠ [] := by
  decide
theorem witness_CommitCompletes :
    let r : CommitRec := ⟨.core, .goOn, false, false, [], 0⟩
    let s := up.withC { up.c with commit := some r }
    s.c.commit = some r ∧ r.started = false ∧ r.ending = .goOn ∧ r.scope ∈ [.core, .grove, .pkg] ∧ s.c.ops = []
      ∧ backWriters s = false ∧ s.c.id.twin = false ∧ s.c.buf = [] ∧ Memory.wf s.pkg.mem = true := by decide
/-- The core is a member of group 9. -/
def grouped (s : State) : State := s.withCore { s.core with member := s.core.member.set 3 (some 9) }
theorem witness_WaitAndBarrierResults :
    let s := grouped (regioned up)
    guardOn 0 s = true ∧ canWrite (.reg 1) s = true ∧ canRead2 (.reg 1) .zero s = true ∧ canRead .zero s = true
      ∧ regionAt s.c.regions false 0x30000 4 = none ∧ (regionAt s.c.regions false 0x2FFFC 4).isSome = true
      ∧ memberSlot s.core 9 = some 3 ∧ memberSlot s.core 8 = none ∧ s.pkg.aborted.contains 9 = false
      ∧ (s.withPkg { s.pkg with aborted := [9] }).pkg.aborted.contains 9 = true := by decide
theorem witness_TrapEntryResults :
    let s := trappable up
    s.c.a.inh = false ∧ s.c.a.trvec.getLsbD 0 = true ∧ Cause.pmt ∉ [Cause.uncontained, .uncorrectable, .doubleTrap]
      ∧ (Cause.poolRegion = .poolRegion → (s.withC { s.c with id := { s.c.id with prt := true } }).c.id.prt = true)
      ∧ up.c.a.trvec.getLsbD 0 = false := by decide
/-- A handler runs in a context that trapped at its next fetch. -/
def handling : State :=
  let s := State.reset.withFetchWord 32 0x00401076
  s.withC { s.c with a := { s.c.a with inh := true, trpc := 4 }, held := some ⟨[⟨1, .s 1 5 false⟩], [.msync]⟩ }
theorem witness_TaskAndTrapResults :
    guardOn 0 up = true ∧ canRead2 .zero (.reg 1) up = true ∧ canRead .lit (literal 0 up) = true
      ∧ up.c.a.inh = false ∧ handling.c.a.inh = true ∧ handling.c.ops.any (fun o => !o.held) = false
      ∧ handling.c.a.trpc.toNat % 4 = 0 ∧ okay (fetchWords handling.c.a.trpc 8 handling) = true ∧ handling.c.pend = []
      ∧ handling.c.held = some ⟨[⟨1, .s 1 5 false⟩], [.msync]⟩ := by decide
/-- The task of the context has stream 5, and the stream area is 128 KiB. -/
def streaming (s : State) : State :=
  let s := s.withPkg { s.pkg with sctcfg := 0x20000 }
  s.withC { s.c with id := { s.c.id with strm := true, stream := 5 } }
theorem witness_GangAndStreamResults :
    guardOn 0 up = true ∧ canRead .mone up = true ∧ canRead2 .zero .one up = true
      ∧ (up.c.id.gsize = 0 ∧ up.c.id.dec = false ∧ Config.coreId.toNat % 16 % 4 = 0 ∧ up.c.id.link = false)
      ∧ (up.withC { up.c with id := { up.c.id with gsize := 1 } }).c.id.gsize ≠ 0 ∧ up.c.id.twin = false ∧ up.pkg.rejoin = none
      ∧ (let s := streaming (mapped up)
        s.c.id.strm = true ∧ s.c.id.stream = 5 ∧ s.c.id.strinfo = 0 ∧ look s.pkg.streams 5 = none
          ∧ streamRoom s.pkg Config.coreId (512 * 128) ≠ none ∧ okay (Sys2Proof.Machine.paOf 0 .both 0 s) = true)
      ∧ streamRoom up.pkg Config.coreId (512 * 128) = none := by decide
theorem witness_SystemRegisterResults :
    guardOn 0 up = true ∧ canRead .lit (literal 0xC00 up) = true ∧ canRead2 (.reg 1) .one up = true ∧ canWrite (.reg 1) up = true
      ∧ (ctxReg 0x10 up).isSome = true ∧ (ctxReg 0x13 up).isSome = true ∧ ctxReg 0x7FF up = none ∧ pkgReg 0x7FF up = none
      ∧ (pkgReg 0x800 up).isSome = true ∧ ctxReg 0x820 up = none ∧ (pkgReg 0x860 up).isSome = true
      ∧ (ctxReg 0x020 up).isSome = true ∧ 0x020 / 4 ≠ 4 ∧ sysregMask 0x020 ≠ 0 ∧ (ctxReg 0x000 up).isSome = true ∧ sysregMask 0x000 = 0 := by
  decide
theorem witness_PhaseEventResults :
    let l : Late := ⟨.linkLost, 3, false⟩
    let s := up.withC { up.c with late := [l] }
    s.c.late = l :: [] ∧ s.c.live = true ∧ s.c.a.inh = false ∧ s.c.frozen = none ∧ s.c.commit = none ∧ up.c.late = []
      ∧ s.c.clock < s.c.a.phbudget.toNat % 2 ^ 32 ∧ (up.withA { up.c.a with phbudget := 0 }).c.a.phbudget.toNat % 2 ^ 32 = 0
      ∧ ¬ (some (8 : BitVec 8) ∈ (grouped up).core.member.toList) ∧ look up.pkg.groups 9 = none
      ∧ (let s := grouped (up.withPkg { up.pkg with groups := [(9, ⟨1, []⟩)] })
        (look s.pkg.groups 9).isSome = true ∧ (memberSlot s.core 9).isSome = true) := by decide
theorem witness_RegisterEventResults :
    (up.withPkg { up.pkg with ppsSkip := true }).pkg.ppsSkip = true ∧ up.pkg.slewFrac < 16 ∧ up.pkg.gainFrac < 16 := by decide
theorem witness_CopySettingResults :
    let s := tensored (regioned (mapped up))
    guardOn 0 s = true ∧ canRead2 .zero .one s = true ∧ canRead .mone s = true ∧ awaits s.c (.reg 31) = false
      ∧ regionAt s.c.regions false 0x2FFC0 64 = some ⟨2, false, 0x20000, 0x10000, true, false⟩
      ∧ regionAt s.c.regions false 0x30000 64 = none ∧ okay (tensorEntry 1 s) = true
      ∧ (tensorOf (tensorImage 0x10201 0 0)).ok = true ∧ (tensorOf (tensorImage 0x10201 0 0)).space ∉ [1, 2]
      ∧ addressOk false 0 s = true ∧ okay (Sys2Proof.Machine.paOf 0 .write 0 s) = true := by decide
/-- Engine c0 is set to copy a word of tensor 1 into tensor 2. -/
def shadowed (s : State) : State :=
  s.withA { s.c.a with shadow := s.c.a.shadow.set 0 { Shadow.zero with stid := 1, dtid := 2 } }
def copying (s : State) : State := shadowed (tensored (regioned (mapped s)))
def copyGo : Instr := .cpGo 0 0 false false false false .zero .zero
theorem witness_CopyGoResults :
    let s := copying up
    let src := tensorOf (tensorImage 0x10201 0 0)
    let dst := tensorOf (tensorImage 0x10203 0 0x20000)
    let h := s.c.a.shadow[(0 : Fin 2)]
    guardOn 0 s = true ∧ okay (tensorEntry 2 s) = true ∧ okay (tensorEntry 1 s) = true ∧ dst.ok = true ∧ src.ok = true
      ∧ badBase dst = false ∧ badBase src = false ∧ dst.writable = true ∧ (convEn h = false ∧ src.esz = dst.esz)
      ∧ (boxFits src h.sc h = true ∧ boxInRegion src h.sc h s = true) ∧ (boxFits dst h.dc h = true ∧ boxInRegion dst h.dc h s = true)
      ∧ boxOnTile src h.sc h s = false ∧ boxOnTile dst h.dc h s = false ∧ (deferredOn s.c 0).length < 16
      ∧ okay (engineReady false s) = true ∧ engineLoad s 0 < 16
      ∧ (tensorOf (tensorImage 0x10200 0 0)).ok = false ∧ (tensorOf (tensorImage 0x00203 0 0x20000)).writable = false
      ∧ phasedBuf (tensorOf (tensorImage 0x1020B 0x20000 0x10000)) = true := by decide
/-- How the next command of engine c0 ends. -/
def copyEnds (s : State) (f : Option Stop → Bool) : Bool :=
  match nextXfer s 0 with
  | some x => f (runXfer x s).2.2 && !onMigrating s (runXfer x s).1 && !ontoSource x s (runXfer x s).1
  | none => false
def tlbIs (l : List TlbEnt) (s : State) : State := s.withPkg { s.pkg with tlb := l }
theorem witness_CopyEventResults :
    let s := after copyGo (copying up)
    nextXfer up 0 = none ∧ copyEnds s (fun e => e.isNone) = true
      ∧ copyEnds (tlbIs [⟨0, 0, 0, 0, 34, 0x101, 0⟩] s) (fun e => match e with | some (.trap .access (some _)) => true | _ => false) = true
      ∧ copyEnds (tlbIs [⟨0, 0, 0, 0, 34, 0x200000000012F, 0⟩] (s.withPkg { s.pkg with poolUp := Vector.replicate 2 false }))
        (fun e => match e with | some (.trap .poolRegion (some _)) => true | _ => false) = true
      ∧ (frozenXfers s 0).length = 0 ∧ (frozenXfers (tlbIs [] s) 0).length = 1
      ∧ (nextXfer s 0).any (fun x => (runXfer x s).1 ≠ [] && (runXfer x s).1.all (fun p => !p.src.isEmpty)) = true
      ∧ (frozenXfers (tlbIs [] s) 0).all (fun x => !ontoSource x.1 (tlbIs [] s) (runXfer x.1 (tlbIs [] s)).1) = true := by
  decide +kernel
/-- Tenant 7 may hold 256 granules; its entry 0 is loaded from address 0 whenever it is wanted; entry 1 is tenant 9's and fills
what is left of the canopy. -/
def resident (s : State) : State :=
  let s := s.withA { s.c.a with quota := 0x0000070001000000 }
  setRes 0 { ResEnt.freed 1 with state := .absent, tenant := 7, desc := 0x29, space := true, src := some 0, len := 128 } s
def crowded (s : State) : State :=
  setRes 1 { ResEnt.freed 1 with state := .ready, tenant := 9, desc := 0xFFFD0029, space := true, pins := 1 } s
/-- Entry 0's state. -/
def entryIs (e : ResState) (pins : Nat) (s : State) : State := setRes 0 { resEnt s.core 0 with state := e, pins := pins } s
theorem witness_ResidencyResults :
    let s := resident (mapped up)
    let desc : W32 := 0x29
    guardOn 0 s = true ∧ canRead .zero s = true ∧ canRead2 .one .zero s = true ∧ awaits s.c (.reg 1) = false
      ∧ (resFormat (descCode desc) (descBs desc)).isSome = true ∧ resFormat (descCode 7) (descBs 7) = none
      ∧ limitOf up.c < quotaUsed up.core (tenantOf up.c) + granules desc
      ∧ quotaUsed s.core (tenantOf s.c) + granules desc ≤ limitOf s.c ∧ freeEntry s.core = some 1
      ∧ (makeSpace 256 (granules desc) s).isSome = true ∧ (makeSpace 256 (granules desc) (crowded s)).isNone = true
      ∧ isTrap (handleOf false 0x07000002 s) .residencyAbsent = true ∧ okay (handleOf false 0x07000001 s) = true
      ∧ okay (handleOf true 0x07000001 s) = true ∧ (spaceFor 0 s).isSome = true ∧ okay (engineReady false s) = true
      ∧ (resEnt s.core 0).usecnt = 0 ∧ descRl (resEnt s.core 0).desc = true ∧ (resEnt s.core 0).src = some 0
      ∧ (resEnt (entryIs .ready 65535 s).core 0).pins = 65535 := by decide
/-- Every entry of the residency table is taken. -/
def full (s : State) : State :=
  s.withCore { s.core with res := (List.range 256).map (fun i => (i, { ResEnt.freed 1 with state := .absent })) }
theorem witness_ResidencyResults_full : freeEntry (full up).core = none := by decide +kernel
def loading (s : State) : State :=
  setRes 0 { resEnt s.core 0 with state := .loading, own := ownerOf s } s
/-- The load of entry 0 can read its whole source, and none of it is poisoned. -/
def loadsWhole (s : State) : Bool :=
  let r := sourceParts (resEnt s.core 0) s
  r.2.2.isNone && r.1.all (fun p => (List.range (ceilDiv p.2 64)).all (fun j => !poisoned r.2.1.pkg (p.1 + 64 * j)))
def withOp (k : MxKind) (s : State) : State := s.withC { s.c with mxq := [⟨0, k, s.c.a.fmt, s.c.a.asd, 0⟩], engCount := 1 }
theorem witness_ResidencyEventResults :
    let s := loading (resident (mapped up))
    (resEnt up.core 255).state ≠ .loading ∧ (resEnt s.core 0).state = .loading
      ∧ loadsWhole s = true
      ∧ (resEnt s.core 0).seen = false ∧ (resEnt s.core 0).transparent = false ∧ s.c.live = true
      ∧ s.c.id.ctxid = (resEnt s.core 0).own.ctxid ∧ mxBusy up.c = false ∧ mxBusy up.c2 = false ∧ mxBusy (withOp .nop up).c = true
      ∧ up.c.compare = none ∧ up.c.emitted = false ∧ up.c.reruns = 0 := by decide
/-- FMT names mode FP32 with an FP32 accumulator; the A stream lies at AS offset 0. -/
def tiled (s : State) : State := (regioned s).withA { s.c.a with asd := ⟨0, 8, false⟩ }
theorem witness_MatrixIssueResults :
    let s := tiled up
    (modeOf s.c.a.fmt).isSome = true ∧ okay (checkMx (.mzero 0) s.c.a.fmt s.c.a.asd s) = true
      ∧ okay (checkMx (.mhada 0 0 true) s.c.a.fmt s.c.a.asd s) = true
      ∧ isTrap (checkMx (.mzero 1) s.c.a.fmt s.c.a.asd s) .misalign = true
      ∧ okay (engineReady true s) = true ∧ queued s.c < 16 ∧ look s.core.routines 63 = none
      ∧ (look (s.withCore { s.core with routines := [(63, 0, 5)] }).core.routines 63).isSome = true
      ∧ okay (checkMend true 1 0 s) = true ∧ okay (checkMend false 0 s.c.a.fmt s) = true ∧ (literal 5 s).grp.lit = some 5
      ∧ callsOpen s.c = false ∧ callsOpen s.c2 = false ∧ user.c.id.sup = false ∧ s.c.id.sup = true ∧ mxIdle s.c = true
      ∧ guardOn 0 s = true ∧ canRead .zero s = true ∧ canWrite (.reg 0) s = true ∧ s.c.tmq = [] ∧ mxBusy s.c = false := by decide
/-- A routine of one group: a known-tile call's guard, mret and three pads. -/
def routineWords : List W32 := [guardWord, slotWord unitM 1 0, 0x70000000, 0x70000000, withStop 0x70000000]
theorem witness_MatrixIssueResults_image :
    wellFormedImage routineWords = true ∧ wellFormedImage (routineWords.take 4) = false ∧ 5 ≤ routineWords.length
      ∧ (regionAt (tiled up).c.regions false 0 (4 * 5)).isSome = true := by decide
theorem witness_MatrixPerformResults :
    let r : Routine := ⟨0, 0, 0, 0, 5, 1, 1, none, false, Vector.replicate 8 0, ⟨0, 0, false⟩⟩
    let s := (withOp .nop up).withCore { up.core with routines := [(0, 0, 5)], mstore := routineWords.mapIdx (fun i w => (i, w)) }
    s.c.routine = none ∧ s.c.mxq ≠ [] ∧ look s.core.routines 0 = some (0, 5) ∧ look s.core.routines 1 = none ∧ r.pc < r.len
      ∧ r.word s.core 1 = slotWord unitM 1 0 ∧ up.c.mxq = [] := by decide
/-! The fabric. -/

/-- Node 0 of a torus of eight nodes. -/
def torus (s : State) : State := s.withPkg { s.pkg with fab := { s.pkg.fab with ext := 0x111, bootExt := 0x111 } }
def packetTo (kind : Nat) (dst : BitVec 12) : Packet := { packet kind with dst := dst }
/-- The routing-table entry's port for a destination. -/
def portTo (dst : BitVec 12) (s : State) : Nat := (routeEntry s.pkg false dst).toNat % 8
theorem witness_RoutingResults :
    let s := torus up
    portTo 0 s = 6 ∧ portTo 0x100 s = 0 ∧ portTo 0x011 s = 2 ∧ portTo 0x200 s = 7 ∧ multipath (packetTo 4 0x100) = true
      ∧ multipath (packetTo 0 0x100) = false ∧ ((routeEntry s.pkg false 0x100).toNat / 8 % 64).testBit 0 = true
      ∧ isOn s.pkg.fab 0 0 false = true ∧ isOn { s.pkg.fab with off := [(0, 0, false)] } 0 0 false = false
      ∧ s.pkg.fab.held.contains (packetTo 4 0x100, none) = false
      ∧ ({ s.pkg.fab with held := [(packetTo 4 0x100, none)] } : Fabric).held.contains (packetTo 4 0x100, none) = true := by decide
def linkIs (k : LinkState) (streak : Nat) (s : State) : State := setLink 0 { s.pkg.links[(0 : Fin 6)] with state := k, streak := streak } s
theorem witness_LinkEventResults :
    linkCarries up.pkg 5 = false ∧ linkCarries (linkIs .degraded 8 up).pkg 0 = true ∧ ((linkIs .up 7 up).pkg.links[(0 : Fin 6)]).streak < 8
      ∧ 8 ≤ ((linkIs .up 8 up).pkg.links[(0 : Fin 6)]).streak ∧ linkTrains up 0 = false ∧ linkTrains (linkIs .retrain 0 up) 0 = true
      ∧ ((linkIs .up 0 up).core.recv[(0 : Fin 6)]).words.length + (List.replicate 4 (0 : W64)).length ≤ 256 ∧ up.c.live = true
      ∧ (linked up).c.id.lease = true := by decide
/-- The package's home pages: physical address 0 on, for all. -/
def homed (s : State) : State :=
  s.withPkg { s.pkg with mem := putCells [] (cellsAt 0x20000 (bytesOf 8 0x12F)), fab := { s.pkg.fab with rwroot := 0x20001 } }
def homeOk (x : Except Home (List Nat)) : Bool := match x with | .ok _ => true | .error _ => false
def homeNak (x : Except Home (List Nat)) : Bool := match x with | .error (.nak _) => true | .error _ => false | .ok _ => false
def homePends (x : Except Home (List Nat)) : Bool := match x with | .error (.waits _) => true | .error _ => false | .ok _ => false
def migratingPage (s : State) : State := s.withPkg { s.pkg with migrating := [0] }
/-- A packet of node 0x100 waits on the path to it since time 0. -/
def pathed (s : State) : State :=
  s.withPkg { s.pkg with devtime := 1000000, fab := { s.pkg.fab with paths := [(0x100, ⟨1, [(packetTo 0 0x100, 0)], false, 0, []⟩)] } }
theorem witness_OrderedPathResults :
    let s := homed up
    (packetTo 0 0x100).dst ≠ s.pkg.nodeid ∧ (packetTo 0 0).dst = s.pkg.nodeid ∧ (look s.pkg.fab.expect 0).getD 0 = (packetTo 0 0).seq
      ∧ homeOk (homeBytes .read 0 8 s) = true ∧ homeOk (homeBytes .both 0 8 s) = true ∧ homeNak (homeBytes .write 0 8 up) = true
      ∧ homePends (homeBytes .write 0 8 (migratingPage s)) = true ∧ (atomOf 0).isSome = true
      ∧ (pathTo (pathed up).pkg.fab 0x100).unacked.any (fun x => x.1.seq = 0) = true
      ∧ (pathTo up.pkg.fab 0x100).unacked.any (fun x => x.1.seq = 0) = false ∧ up.pkg.fab.conns = []
      ∧ ((pathTo (pathed up).pkg.fab 0x100).unacked.filter (fun x => decide (tmoNs (pathed up).pkg.fab ≤ age (pathed up) x.2))) ≠ []
      ∧ (pathTo up.pkg.fab 0x100).unacked = [] ∧ up.pkg.chans = [] ∧ storersTo 0x100 (pathed up) = []
      ∧ (∃ o, waiting.c.ops[3]? = some o ∧ ∃ n f l, o.kind = .remoteLoad n f l)
      ∧ (∃ o, waiting.c.ops[4]? = some o ∧ ∃ n f p x y, o.kind = .remoteAtom n f p x y) := by
  refine ⟨by decide, by decide, by decide, by decide, by decide, by decide, by decide, by decide, by decide, by decide, by decide,
    by decide, by decide, by decide, by decide, ⟨_, rfl, _, _, _, rfl⟩, ⟨_, rfl, _, _, _, _, _, rfl⟩⟩
/-- Connection 3 of the context, to node 0x100. -/
def connIs (st : ConnState) (out : List Message) (s : State) : State :=
  torus (s.withPkg { s.pkg with devtime := 100000000, fab := { s.pkg.fab with conns := [⟨0, 3, st, 1, 0x100, 0, true, 8, 0, 65536, 1, out, 0, 0, 0⟩] } })
def message (sent : Option W64) : Message := ⟨0, 256, none, false, false, 0, List.replicate 256 1, 0, 0, sent, false⟩
def stuckIn (s : State) (c : Conn) : Bool :=
  (outstanding c).any (fun m => match m.sent with | some t => decide (tmoNs s.pkg.fab ≤ age s t) | none => false)
theorem witness_ConnectionResults :
    let s := connIs .closed [] (regioned up)
    guardOn 0 s = true ∧ canRead2 .one .zero s = true ∧ canRead .one s = true ∧ awaits s.c (.reg 1) = false
      ∧ nodeInExt s.pkg.fab.ext 0x111 = true ∧ nodeInExt s.pkg.fab.ext 0x200 = false
      ∧ (regionAt s.c.regions false 0x2FFFC 4).isSome = true ∧ (connOf s 3).state = .closed
      ∧ (connOf (connIs .opened [] up) 3).state = .opened ∧ (connOf (connIs .opening [] up) 3).state = .opening
      ∧ findConn s 0 3 ≠ none ∧ findConn s 0 4 = none ∧ (connOf (connIs .broken [] up) 3).state = .broken
      ∧ (connOf (connIs .closing [message (some 0)] up) 3).state = .closing
      ∧ stuckIn (connIs .opened [message (some 0)] up) (connOf (connIs .opened [message (some 0)] up) 3) = true
      ∧ 8 * tmoNs s.pkg.fab ≤ age s 0 ∧ age (torus up) 0 < 8 * tmoNs up.pkg.fab ∧ s.pkg.fab.gets = []
      ∧ (packetTo 10 0x100).dst ≠ s.pkg.nodeid ∧ (packetTo 10 0).dst = s.pkg.nodeid ∧ findInbound s (packetTo 10 0) = none
      ∧ s.pkg.fab.inbound.length < 4096 := by decide
/-- A record of the connection 0 of node 0, with a message of two packets of which the first has landed; message 7 is complete. -/
def inbound (s : State) : State :=
  (homed s).withPkg { (homed s).pkg with fab := { (homed s).pkg.fab with inbound := [⟨0, 0, 0, 0, 0, [⟨0, 512, 1, 256, false⟩], [7]⟩] } }
def putPacket (seq : W32) (poff : Nat) : Packet := { packet 4 with seq := seq, poff := poff, data := [1, 2, 3, 4] }
def getting (s : State) : State :=
  s.withPkg { s.pkg with fab := { s.pkg.fab with gets := [⟨ownerOf s, 3, 0, 0, 0, 0, 0x100, 2, true, 1⟩] } }
theorem witness_MessageResults :
    let s := connIs .opened [] (regioned (mapped up))
    guardOn 0 s = true ∧ canRead2 (.reg 1) .zero s = true ∧ 5 < (6 : Fin 16).val ∧ (5 : Fin 16).val ≤ 5
      ∧ (connOf s 3).state = .opened ∧ ¬ ((connOf s 2).state = .opened ∨ (connOf s 2).state = .opening)
      ∧ okay (sourceRange 0 1 s) = true ∧ remoteItems s.c.buf + 1 ≤ 128 ∧ (connOf s 3).ge = true
      ∧ (regionAt s.c.regions false 0x100 256).isSome = true ∧ okay (engineReady false s) = true ∧ classBusy 0 0 s = false
      ∧ windowRoom (connOf s 3) (message none) = true ∧ pathRoom s.pkg.fab 0x100 1 = true := by decide
theorem witness_MessageResults_landing :
    let s := inbound up
    findInbound up (putPacket 0 0) = none ∧ findInbound s (putPacket 0 0) = some ⟨0, 0, 0, 0, 0, [⟨0, 512, 1, 256, false⟩], [7]⟩
      ∧ completed ⟨0, 0, 0, 0, 0, [⟨0, 512, 1, 256, false⟩], [7]⟩ 7 = true ∧ completed ⟨0, 0, 0, 0, 0, [⟨0, 512, 1, 256, false⟩], [7]⟩ 0 = false
      ∧ homeOk (homeBytes .write 0 4 s) = true ∧ (⟨0, 512, 1, 256, false⟩ : Landing).bitmap.getLsbD 0 = true
      ∧ (⟨0, 512, 1, 256, false⟩ : Landing).bitmap.getLsbD 1 = false ∧ (⟨0, 512, 1, 256, false⟩ : Landing).len ≤ 256 + 256
      ∧ s.pkg.fab.tags.find? (fun t => t.1 = 0) = none ∧ tagAfter (0, 0, 0) (0, 0, 0) = false ∧ tagAfter (0, 0, 1) (0, 0, 0) = true
      ∧ homeOk (homeBytes .read 0 256 s) = true ∧ homeNak (homeBytes .read 0 256 up) = true := by decide +kernel
theorem witness_MessageResults_get :
    let s := getting (regioned up)
    let g : Get := ⟨ownerOf (regioned up), 3, 0, 0, 0, 0, 0x100, 2, true, 1⟩
    s.pkg.fab.gets.find? (fun g => g.own.ctxid = 0 && g.cn = 3 && g.seq = 0) = some g
      ∧ s.pkg.fab.gets.find? (fun g => g.own.ctxid = 0 && g.cn = 2 && g.seq = 0) = none ∧ g.got.getLsbD 0 = true
      ∧ g.got.getLsbD 1 = false ∧ g.n ≤ 2 ∧ s.c.live = true ∧ s.c.id.ctxid = g.own.ctxid
      ∧ (regionAt s.c.regions false (g.off + 256 * 1) 256).isSome = true ∧ popN 256 (setBit g.got 1 true).toNat = g.n
      ∧ (let s := connIs .opened [message (some 0)] up
        (outstanding (connOf s 3)).find? (fun m => m.seq = 0 && !m.get) = some (message (some 0)) ∧ (findConn s 0 3).isSome = true) := by
  decide +kernel
/-! Pages, ports and the device. -/

/-- The context is frozen at an access whose PTE, at physical address 0x100, is `pte`. -/
def stuck : FaultRec := ⟨0x50000, 0, 0, some 0x100, 3⟩
def frozenOn (pte : Nat) (s : State) : State :=
  (s.withC { s.c with frozen := some stuck }).withPkg { s.pkg with
    mem := putCells [] (cellsAt 0x100 (bytesOf 8 pte)), devtime := 0x2000, freezemax := 0x1000 }
def severedFromHost (s : State) : State := s.withPkg { s.pkg with hostUp := false, freezemax := 0 }
def pagedOut (s : State) : State := s.withPkg { s.pkg with tickets := [(5, stuck, 0x70000)] }
theorem witness_PageServiceResults :
    let s := frozenOn 0x200 up
    nextClient up = none ∧ nextClient s = some (.here stuck) ∧ stuck.ptePa = some 0x100 ∧ pteValid 0x30121 = true
      ∧ ptePG (getNum s.pkg.mem 0x100 8) = true ∧ pteHB (getNum (frozenOn 0x400 up).pkg.mem 0x100 8) = true ∧ s.pkg.hostUp = true
      ∧ (severedFromHost s).pkg.hostUp = false ∧ s.pkg.tickets.find? (fun t => t.1 = 5) = none
      ∧ (pagedOut s).pkg.tickets.find? (fun t => t.1 = 5) = some (5, stuck, 0x70000) ∧ s.c.frozen = some stuck
      ∧ s.c2.frozen = none ∧ up.c.frozen = none ∧ s.c.emitted = false ∧ s.c.saving = false
      ∧ s.pkg.freezemax.toNat % 2 ^ 32 ≠ 0 ∧ s.pkg.freezemax.toNat % 2 ^ 32 ≤ (s.pkg.devtime - s.c.frozenSince).toNat
      ∧ (severedFromHost s).pkg.freezemax.toNat % 2 ^ 32 = 0 := by decide +kernel
/-- A pager of an environment is registered for the page; the context's environment is 0. -/
def pagerIs (env : Nat) : Pager := ⟨env, 0, 0, 0x40000, 0x5FFFF, 0x90000, 4, 0, 0x98000, 1⟩
def paging (env : Nat) (s : State) : State := s.withPkg { s.pkg with pagers := [pagerIs env] }
theorem witness_PageServiceResults_pager :
    let s := frozenOn 0x200 up
    pagerOf (.here stuck) s = none ∧ pagerOf (.here stuck) (paging 0x30000 s) = some (0, pagerIs 0x30000, false)
      ∧ pagerOf (.here stuck) (paging 0 s) = some (0, pagerIs 0, true) := by decide
theorem witness_PageServiceResults_clearing : ({ up.c with clearing := true } : Ctx).clearing = true := by decide
theorem witness_PageServiceResults_migration :
    let s := migratingPage up
    up.pkg.migrating = [] ∧ s.pkg.migrating = [0] ∧ 0x50000 % 2 ^ 16 = 0 ∧ paExists 0x50000 = true ∧ leavesInUse s = []
      ∧ 0x80000000 % 2 ^ 16 = 0 ∧ mayMigrate 0x80000000 16 up = true ∧ mayMigrate 0 16 s = false
      ∧ Memory.wf s.pkg.mem = true ∧ s.pkg.migrating.contains 0x50000 = false ∧ pinsOf s.pkg 0x50000 = 0 := by decide +kernel
/-- Residency 4 watches 256 bytes of the pool. -/
def watching (s : State) : State :=
  s.withCore { s.core with res := [(4, { resEnt s.core 4 with state := .ready, watched := true, watch := [(2 ^ 49, 256)] })] }
theorem witness_PortAndServiceResults :
    let s := up
    s.pkg.poolUp[(0 : Fin 2)] = false ∧ s.pkg.poolTries[(0 : Fin 2)] < 16 ∧ (severedFromHost s).pkg.hostUp = false ∧ s.pkg.hostTries < 16
      ∧ (mapped s).pkg.poolUp[(0 : Fin 2)] = true ∧ (frozenOn 0 s).pkg.hostUp = true ∧ hostReaches (frozenOn 0 s).pkg 0x100 = true
      ∧ hostReaches (frozenOn 0 s).pkg (0x100 + [1, 2].length - 1) = true ∧ hostReaches (frozenOn 0 s).pkg (3 * 2 ^ 48) = true
      ∧ hostReaches s.pkg (2 ^ 39) = false ∧ linkCarries s.pkg 0 = false ∧ linkCarries (linkIs .up 0 s).pkg 0 = true
      ∧ ((linkIs .failed 0 s).pkg.links[(0 : Fin 6)]).state = .failed ∧ laneInUse s.pkg.hbm 0 5 = true
      ∧ spareFree s.pkg.hbm 0 0 = true ∧ 2 ^ 49 / 2 ^ 48 = 2 ∧ (resEnt (watching s).core 4).state = .ready
      ∧ (resEnt (watching s).core 4).watched = true ∧ (2 ^ 49, 256) ∈ (resEnt (watching s).core 4).watch := by decide
/-- Channel 0 of stack 0 swaps lane 5 for its spare. -/
def swapping (s : State) : State := s.withHbm { s.pkg.hbm with swapping := [(0, 5)] }
/-- The spare of channel 0 of stack 0 carries lane 6. -/
def spareless (s : State) : State := s.withHbm { s.pkg.hbm with spares := [(0, 0, 6)] }
theorem witness_HbmTransferResults :
    (0x40 : Nat) < 2 ^ 39 ∧ chanSwaps (swapping up).pkg.hbm 0 0 = true ∧ chanSwaps up.pkg.hbm 0 0 = false
      ∧ ([130].filter (fun k => k < 128)).dedup = [] ∧ ([7, 7].filter (fun k => k < 128)).dedup = [7]
      ∧ ([0, 127].filter (fun k => k < 128)).dedup = [0, 127] ∧ up.pkg.hbm.ecclog.getLsbD 63 = false
      ∧ (5 : Nat) / 64 = 0x40 / 2 ^ 31 % 32 ∧ laneInUse (spareless up).pkg.hbm 0 5 = true ∧ spareFree (spareless up).pkg.hbm 0 0 = false
      ∧ chanSwaps (spareless up).pkg.hbm 0 0 = false ∧ (swapping up).pkg.hbm.waiting = []
      ∧ (swapping up).pkg.hbm.swapping.find? (fun y => y.1 = 0 && y.2 / 64 = 0) = some (0, 5) := by decide
def polled (p : Policy) : State := up.withPkg { up.pkg with ksu := { up.pkg.ksu with policy := Vector.replicate 4 p } }
theorem witness_BootAndAlarmResults :
    (polled .log).pkg.ksu.policy[(0 : Fin 4)] = .log ∧ (polled .halt).pkg.ksu.policy[(3 : Fin 4)] = .halt
      ∧ (polled .erase).pkg.ksu.policy[(1 : Fin 4)] = .erase ∧ up.pkg.boot.nonce = none ∧ nonced.pkg.boot.nonce = some 9
      ∧ [false].getD 0 true = false ∧ ([] : List Bool).getD 1 true = true ∧ ([] : List Byte).length < 64 := by decide
/-- A public key, and a signature under it of the SHA-256 digest of "sample" (the P-256 vectors of RFC 6979, A.2.5). -/
def signerKey : List Byte :=
  (bytesOf 32 0x60FED4BA255A9D31C961EB74C6356D68C049B8923B61FA6CE669622E60F29FB6).reverse
    ++ (bytesOf 32 0x7903FE1008B8BC99A41AE9E95628BC64F2F1B20C2D7E9F5177A3C294D4462299).reverse
def signed : BitVec 512 := signatureOf 0xEFD48B2AACB6A8FD1140DD9CD45E81D69D2C877B56AAF991C34D0EA84EAF3716
  0xF7CB1C942D657C41D436C7A1B6E29F65F3E900DBB9AFF4064DC4AB2F843ACDA8
theorem witness_BootAndAlarmResults_signed :
    ecdsaVerify signerKey (sha256 [0x73, 0x61, 0x6d, 0x70, 0x6c, 0x65]) signed = true := by decide +kernel
theorem witness_BootAndAlarmResults_unsigned :
    sha256 signerKey ≠ up.pkg.ksu.keyHash ∧ ({ up.pkg.ksu with keyHash := sha256 signerKey } : Ksu).keyHash = sha256 signerKey := by
  decide +kernel
/-- Boot step 2 refuses an image whose rollback counter is too low. -/
theorem witness_BootAndAlarmResults_image (r : BootRun) :
    imageAccepted { Ksu.zero with counter := 1 } { r with counter := 0 } = false := by
  have h : (decide ((1 : W32).toNat ≤ (0 : W32).toNat)) = false := by decide
  simp only [imageAccepted, h, Bool.and_false]
theorem witness_BootAndAlarmResults_refused : loadImage 0 0 [] up = none := by decide

/-! Channels. -/

/-- The 64 bytes of a channel: KIND, the group 1, DEPTH 1, FP32 add, scope pkg, ROOT, N = 1, slots at 0 and 0x100, its event
words at 0x200. -/
def channelBytes (kind root : Nat) : List Byte :=
  bytesOf 1 kind ++ [1, 1, 0, 0, 4] ++ bytesOf 2 root ++ bytesOf 4 1 ++ bytesOf 4 0 ++ bytesOf 4 0 ++ bytesOf 4 0x100 ++ bytesOf 4 256
    ++ bytesOf 4 256 ++ bytesOf 4 0x200 ++ List.replicate 28 0
/-- Channel 1 of group 1, whose members are the given cores. -/
def channeled (kind root : Nat) (cores : BitVec 256) (s : State) : State :=
  let s := regioned s
  (s.withC { s.c with id := { s.c.id with gids := [1] } }).withPkg { s.pkg with
    groups := [(1, ⟨cores, []⟩)], chans := [(1, { Chan.unused with ent := channelBytes kind root })] }
/-- Its one operation is outstanding, or its member state the running context's. -/
def busyChan (s : State) : State := setChan 1 { chanAt s 1 with issued := 1 } s
def ownedChan (s : State) : State := setChan 1 { chanAt s 1 with owner := some (ownerOf s), issued := 1 } s
def checks (kind : Option Nat) (s : State) : Bool := okay (chanCheck kind 1 s)
theorem witness_ChannelResults :
    let p2p := channeled 1 0 3 up
    let s := channeled 2 0 1 up
    guardOn 0 s = true ∧ canRead .one s = true ∧ canRead2 .one .one s = true ∧ awaits s.c (.reg 1) = false
      ∧ checks (some 1) p2p = true ∧ isSender p2p (channelBytes 1 0) = true ∧ checks (some 2) s = true
      ∧ checks (some 3) (channeled 3 0 1 up) = true ∧ checks (some 4) (channeled 4 0 1 up) = true ∧ checks none s = true
      ∧ checks (some 1) (channeled 1 1 3 up) = true ∧ isSender (channeled 1 1 3 up) (channelBytes 1 1) = false
      ∧ chanOut s (chanAt s 1) < chDepth (channelBytes 2 0) ∧ chDepth (channelBytes 2 0) ≤ chanOut (busyChan s) (chanAt (busyChan s) 1)
      ∧ okay (engineReady false s) = true ∧ checks (some 1) s = false := by decide +kernel
theorem witness_ChannelResults_events :
    let s := channeled 2 0 1 up
    let c := chanAt s 1
    chKind c.ent ≠ 0 ∧ malformedChan s c.ent = false ∧ isMember s 1 = true ∧ s.c.id.gids.contains 1 = true
      ∧ ownedElsewhere s c = false ∧ c.fault = false ∧ s.pkg.aborted.contains 1 = false ∧ slotsPlain s c.ent = true
      ∧ chKind (chanAt up 1).ent = 0 ∧ ownerHere s c = false ∧ ownerHere (ownedChan s) (chanAt (ownedChan s) 1) = true
      ∧ (chanAt (ownedChan s) 1).sr < (chanAt (ownedChan s) 1).issued ∧ chArrival (channelBytes 2 0) = false := by decide +kernel

/-! Attention. -/

/-- Sequence 1 under generation 5: units of 16 tokens, two layers of one head of 64 FP16 elements, held by this package. -/
def sequence : SeqEntry := ⟨1, 5, false, 4, .fp16, 1, 2, 1, 64, 0, none, none, [0]⟩
def unitIs (st : UnitState) (tier1 : Bool) : UnitEnt := ⟨1, 0, 0x10000, 2 ^ 49, 3, st, tier1, 0, none, 5, 0x40000, []⟩
/-- The sequence stands in the table with its unit 0, and AS begins with the given bytes. -/
def attending (e : SeqEntry) (x : List UnitEnt) (b : List Byte) (s : State) : State :=
  let s := (regioned (mapped s)).withAttn { s.pkg.attn with seqs := [(1, e)], units := x }
  s.withCore { s.core with as := putCells [] (cellsAt 0 b) }
/-- A record that names sequence 1 with layer 9, and one that names no sequence. -/
def badLayer : List Byte := bytesOf 4 1 ++ bytesOf 4 9 ++ bytesOf 2 9
def askOf (got : Option HolderReply) : Ask := ⟨7, 0, { Owner.none with ctxid := 0 }, 0x40, 0, 64, 0, false, 5, 0, got, 0, [], false⟩
def asked (got : Option HolderReply) (s : State) : State := s.withAttn { s.pkg.attn with asks := [askOf got] }
def queryFrom (n : BitVec 12) (gen : W16) : Query := ⟨7, n, 1, 0, 0, 0, 0, 0, none, [], false, gen, [0]⟩
def gathered (s : State) : State := s.withAttn { s.pkg.attn with gathering := [(1, 0)] }
theorem witness_QueryResults :
    let s := attending sequence [] (bytesOf 4 1) up
    guardOn 0 s = true ∧ canRead2 .one .one s = true ∧ canRead2 .zero .zero s = true ∧ (1 : W64).toNat % 256 ≠ 0
      ∧ regionAt (mapped up).c.regions false 0 64 = none ∧ okay (record 256 0 64 s) = true ∧ seqOf s 1 = some sequence
      ∧ seqOf (attending sequence [] [] up) 0 = none ∧ (regionAt s.c.regions false 0 64).isSome = true
      ∧ okay (record 256 0 (64 + 4 * 64 + 4 * 0) s) = true ∧ (regionAt s.c.regions false 0 (64 + 4 * 64 + 8 * 0)).isSome = true
      ∧ queryLegal sequence (padTo 64 (bytesOf 4 1)) = true ∧ queryLegal sequence (padTo 64 badLayer) = false
      ∧ okay (engineReady false s) = true ∧ mayRelease 3 0 (atStart s) = true := by decide +kernel
theorem witness_QueryResults_events :
    let s := attending sequence [] [] up
    gathers s 1 = false ∧ gathers (gathered s) 1 = true ∧ (queryFrom 0x100 5).from_ ≠ s.pkg.nodeid
      ∧ (queryFrom 0x100 5).gen = sequence.gen ∧ (queryFrom 0x100 4).gen ≠ sequence.gen ∧ s.pkg.attn.folds = []
      ∧ s.pkg.attn.asks.find? (fun a => a.qid = 7) = none
      ∧ (asked none s).pkg.attn.asks.find? (fun a => a.qid = 7) = some (askOf none) ∧ s.c.live = true
      ∧ s.c.id.ctxid = (askOf none).own.ctxid ∧ Memory.wf s.core.as = true
      ∧ (regionAt s.c.regions false (askOf none).resOff (64 + 4 * 64 + 8 * 0)).isSome = true
      ∧ (let s := connIs .closed [] up; tmoNs s.pkg.fab ≤ age s 0) ∧ s.pkg.attn.apps = [] ∧ s.pkg.attn.pmts = []
      ∧ s.pkg.attn.rebals = [] ∧ unitIs .valid true ∈ (attending sequence [unitIs .valid true] [] up).pkg.attn.units
      ∧ coveredTokens (queryFrom 0x100 5) sequence (unitIs .valid false) = [] := by decide +kernel

def appendAt (pos : Nat) (gen : W16) : Append := ⟨3, 0x100, 1, pos, 0, 1, gen, true, []⟩
def appOf (here : Bool) : AppOp := ⟨3, 0, { Owner.none with ctxid := 0 }, 0x40, none, here, true, 0⟩
def appending (here : Bool) (s : State) : State := s.withAttn { s.pkg.attn with apps := [appOf here] }
theorem witness_PositionMapResults_append :
    let s := attending sequence [unitIs .valid false] (bytesOf 4 1) up
    guardOn 0 s = true ∧ canRead2 .zero .zero s = true ∧ okay (record 256 0 64 s) = true ∧ okay (wordAt 0 s) = true
      ∧ seqOf s 1 = some sequence ∧ sequence.nl < entNum badLayer 8 2 ∧ posLegal sequence 0 = true
      ∧ ({ sequence with tailu := 2 } : SeqEntry).tailu > 0 / unitTokens { sequence with tailu := 2 }
      ∧ okay (engineReady false s) = true ∧ mayRelease 3 0 (atStart s) = true ∧ gathers s 1 = false
      ∧ s.pkg.attn.pmts.find? (fun p => p.n = 3) = none
      ∧ (appendAt 3 5).from_ ≠ s.pkg.nodeid ∧ (appendAt 3 4).gen ≠ sequence.gen ∧ (appendAt 3 5).gen = sequence.gen
      ∧ unitOf_ s 1 0 = some (unitIs .valid false) ∧ unitOf_ s 1 1 = none ∧ (appendAt 19 5).pos % unitTokens sequence ≠ 0
      ∧ (unitIs .paging true).state = .paging ∧ (unitIs .valid true).tier1 = true ∧ (unitIs .valid false).fill < 9 % unitTokens sequence
      ∧ (appendAt 3 5).pos % unitTokens sequence ≤ (unitIs .valid false).fill
      ∧ (appending true s).pkg.attn.apps.find? (fun a => a.aid = 3) = some (appOf true) ∧ s.c.live = true
      ∧ s.c.id.ctxid = (appOf true).own.ctxid ∧ (appending false s).pkg.attn.apps = [appOf false] := by decide +kernel
/-- A map of no sequences; the image of one in AS. -/
def mapless (b : List Byte) (s : State) : State := let s := attending sequence [] b s; s.withAttn { s.pkg.attn with seqs := [] }
def toPool : List Byte := unitImage { unitIs .valid true with frame := 2 ^ 61 }
def pinnedPx (s : State) : State := s.withAttn { s.pkg.attn with px := [(3, ⟨0, 0, 1, 1, 0⟩)] }
theorem witness_PositionMapResults_map :
    let s := mapless (seqImage sequence) up
    canRead2 .zero .one s = true ∧ (1 : W64).toNat % 64 ≠ 0 ∧ regionAt up.c.regions false 0 64 = none
      ∧ (regionAt s.c.regions false 0 64).isSome = true ∧ ((3 * 2 ^ 32 : W64).extractLsb' 32 2).toNat = 3
      ∧ ((0 : W64).extractLsb' 32 2).toNat ≠ 3 ∧ canRead .zero s = true
      ∧ okay (record 64 0 64 s) = true ∧ okay (attnIdle 1 s) = true
      ∧ seqOfImage (seqImage sequence) = some ({ sequence with gen := 5, holders := [] }, 1, 0) ∧ seqOf s 1 = none
      ∧ seqOfImage badLayer = none ∧ (entNum (seqImage sequence) 6 2).testBit 0 = true ∧ okay (listBytes 0 2 s) = true
      ∧ distinct [0] = true ∧ (seqMembers s 1).any (fun m => m.toNat = 0) = true ∧ s.pkg.attn.seqs.length < 512
      ∧ (s.pkg.attn.seqs.map (fun x => x.2.holders.length)).sum + 1 ≤ 65536 ∧ (entNum badLayer 6 2).testBit 0 = false
      ∧ prefixHolds (pinnedPx s) 1 0 (2 ^ 64) = true ∧ prefixHolds s 1 0 (2 ^ 64) = false := by decide +kernel
theorem witness_PositionMapResults_unit :
    let s := attending sequence [unitIs .valid false] toPool up
    let va := BitVec.ofNat 64 (entNum toPool 8 8)
    okay (record 64 0 64 s) = true ∧ okay (attnIdle 1 s) = true ∧ seqOf s 1 = some sequence
      ∧ unitOf_ s 1 0 = some (unitIs .valid false) ∧ entNum toPool 0x13 1 = 1 ∧ spaceOf va = 2 ∧ nodeOf va = 0
      ∧ prefixHolds s 1 (0 * unitTokens sequence) (0 * unitTokens sequence + unitTokens sequence) = false
      ∧ (∃ pte log v, Sys2Proof.Machine.translate 2 .read va s = .ok (pte, log, v) ∧ permits .read s.c.id.sup pte = true
        ∧ va.toNat % 2 ^ 48 % 2 ^ log + rangeBytes sequence ≤ 2 ^ log) := by
  refine ⟨by decide +kernel, by decide +kernel, by decide +kernel, by decide +kernel, by decide +kernel, by decide +kernel,
    by decide +kernel, by decide +kernel, _, _, _, rfl, by decide +kernel, by decide +kernel⟩
def twoHolders : SeqEntry := { sequence with holders := [0, 0x100] }
/-- A rebalance of it by this package, which has sent its step or still waits for an answer. -/
def rebalIs (gen : W16) (sent : Bool) : RebalOp :=
  ⟨9, { Owner.none with ctxid := 0 }, 0, 1, 0x100, gen, none, [2], if sent then [] else [2], none, sent, [], 0⟩
def rebalancing (o : RebalOp) (s : State) : State := s.withAttn { s.pkg.attn with rebals := [o] }
def stepOf (from_ : BitVec 12) (gen : W16) : RebalStep := ⟨from_, 1, 0x100, gen, none, []⟩
theorem witness_PositionMapResults_rebalance :
    let s := attending twoHolders [unitIs .copying false] [] up
    seqOf s 0 = none ∧ seqOf s 1 = some twoHolders ∧ twoHolders.holders.contains 0x100 = true ∧ twoHolders.holders.length ≠ 1
      ∧ twoHolders.holders.contains 0x200 = false ∧ twoHolders.gen ≠ 4 ∧ okay (engineReady false s) = true ∧ okay (wordAt 0 s) = true
      ∧ okay (attnIdle 1 s) = true ∧ (∀ o ∈ s.pkg.attn.rebals, o.n ≠ s.pkg.attn.next) ∧ gathers s 1 = false ∧ s.pkg.attn.heldq = []
      ∧ twoHolders.seqid = 1 ∧ rebalOf s 1 = none ∧ rebalOf (rebalancing (rebalIs 4 true) s) 1 = some (rebalIs 4 true)
      ∧ (rebalIs 5 false).left.contains 2 = true ∧ (rebalIs 5 false).left.contains 3 = false
      ∧ (stepOf 0x100 5).from_ ≠ s.pkg.nodeid ∧ (stepOf 0x100 5).gen = twoHolders.gen ∧ (stepOf 0x100 4).gen ≠ twoHolders.gen
      ∧ (stepOf 0 5).from_ = s.pkg.nodeid ∧ (rebalIs 5 true).path.any (unacked s) = false
      ∧ (stepOf 0 5).tail = tailOf twoHolders (rebalIs 5 true).lost (rebalIs 5 true).best
      ∧ rebalApplied s (rebalIs 4 true) = true ∧ rebalApplied s (rebalIs 5 true) = false ∧ s.c.live = true
      ∧ s.c.id.ctxid = (rebalIs 4 true).own.ctxid ∧ seqRoom s 2 = true ∧ seqRoom s 65536 = false
      ∧ unitOf_ s 1 0 = some (unitIs .copying false) ∧ (unitIs .copying false).held = [] := by decide +kernel

def prefixed (l : Table PxEnt) (s : State) : State := s.withAttn { s.pkg.attn with px := l }
def pxRecord : List Byte := bytesOf 8 0 ++ bytesOf 4 1
theorem witness_PrefixAndTierResults_prefix :
    let s := attending sequence [] (bytesOf 4 1) up
    let full := (List.range 64).map (fun i => (i, (⟨9, i, 1, 1, 0⟩ : PxEnt)))
    guardOn 0 s = true ∧ canRead .zero s = true ∧ canRead2 .zero .one s = true ∧ awaits s.c (.reg 1) = false
      ∧ okay (record 64 0 64 s) = true ∧ (1 : W64).toNat % 64 ≠ 0 ∧ okay (hashList 0 s) = true ∧ (full.map Prod.fst).Nodup
      ∧ okay (record 16 0 16 s) = true ∧ seqOf s (BitVec.ofNat 32 (entNum pxRecord 8 4)) = some sequence
      ∧ seqOf s (BitVec.ofNat 32 (entNum [] 8 4)) = none ∧ pxFind [(3, ⟨0, 0, 1, 0, 0⟩)] 0 0 = some (3, ⟨0, 0, 1, 0, 0⟩)
      ∧ pxFind (prefixed full s).pkg.attn.px 0 0 = none ∧ pxVictim s.pkg.attn.px = some 0 ∧ pxVictim full = none
      ∧ 64 < (valueOf .mone s).toNat ∧ (valueOf .one s).toNat ≤ 64 := by decide +kernel
def tierOp : TierOp := ⟨{ Owner.none with ctxid := 0 }, 0, 0, 0, 1, 0, none, 0x40000⟩
def tiering (s : State) : State := s.withAttn { s.pkg.attn with tiers := [tierOp] }
theorem witness_PrefixAndTierResults_tier :
    let s := attending sequence [unitIs .valid true] [] up
    let p := tiering (attending sequence [unitIs .paging true] [] up)
    canRead .zero s = true ∧ canRead2 .zero .zero s = true ∧ okay (wordAt 0 s) = true ∧ seqOf s 1 = some sequence
      ∧ unitOf_ s 1 0 = some (unitIs .valid true) ∧ unitOf_ s 1 5 = none ∧ (unitIs .valid false).tier1 = false
      ∧ okay (engineReady false s) = true ∧ engineLoad s 0 < 16
      ∧ nextTier s 0 = none ∧ nextTier p 0 = some tierOp ∧ seqOf p tierOp.seqid = some sequence
      ∧ unitOf_ p tierOp.seqid tierOp.unit = some (unitIs .paging true) ∧ severed p.pkg (unitIs .paging true).poolPa = false
      ∧ severed (tiering up).pkg (unitIs .paging true).poolPa = true ∧ (unitIs .paging true).held = [] ∧ p.c.live = true
      ∧ p.c.id.ctxid = tierOp.own.ctxid ∧ p.c2.live = false ∧ p.c.phseq = tierOp.own.phseq
      ∧ (emit p).c.emitted = true ∧ Memory.wf p.pkg.mem = true
      ∧ (unitIs .paging true).fresh + rangeBytes sequence ≤ (unitIs .paging true).poolPa := by decide +kernel
/-- The allocator's frames are a free value: where the next one lies aligned in its stack, the unit's range is allocated. -/
theorem witness_PrefixAndTierResults_alloc (h : Config.allocFrame 0 65536 0 = 0) :
    (allocRange sequence 0 up).isSome = true := by
  have hr : rangeBytes sequence = 65536 := by decide +kernel
  simp only [allocRange, hr]
  have ht : up.tick * 2 ^ 20 + up.pkg.attn.units.length = 0 := by decide +kernel
  rw [ht, h]
  decide +kernel
/-- Where it lies at no such place, none is. -/
theorem witness_PrefixAndTierResults_full (h : Config.allocFrame 0 65536 0 = 1) : allocRange sequence 0 up = none := by
  have hr : rangeBytes sequence = 65536 := by decide +kernel
  simp only [allocRange, hr]
  have ht : up.tick * 2 ^ 20 + up.pkg.attn.units.length = 0 := by decide +kernel
  rw [ht, h]
  decide +kernel
theorem witness_PrefixAndTierResults_smrg :
    ∀ i, i < (2 : Fin 8).val → awaitsV up.c (.reg (regPlus 4 i)) = false ∧ awaitsV up.c (.reg (regPlus 8 i)) = false := by decide

/-! Token merge. -/

/-- A merge record: the handle, N, RCNT, rows of one FP32 element, and the pitches. -/
def mergeBytes (h n rcnt : Nat) : List Byte :=
  bytesOf 4 h ++ bytesOf 4 0x100 ++ bytesOf 4 0x200 ++ bytesOf 4 0 ++ bytesOf 2 n ++ bytesOf 2 rcnt ++ bytesOf 2 1 ++ bytesOf 2 0
    ++ bytesOf 4 4 ++ bytesOf 4 4
def recordOf (u : TmUse) (bk : Bool) (s : State) : Option (MergeRec × Nat) :=
  match record 64 0 64 s with
  | .error _ => none
  | .ok b => match mergeRec u b with
    | .error _ => none
    | .ok r => match rowsAt r.src r.sp r.row r.n bk s with
      | .error _ => none
      | .ok src => if okay (mergeAligned r) then some (r, src) else none
def mergeOf (h : W32) (n rcnt : Nat) : MergeRec := ⟨h, 0x100, 0x200, 0, n, rcnt, 1, .fp32, 4, 4⟩
/-- Map slot 0, of four tokens, and AS as given. -/
def mapping (pending : Bool) (b : List Byte) (s : State) : State :=
  let s := regioned s
  s.withCore { s.core with
    as := putCells [] (cellsAt 0 b)
    maps := [(0, ⟨7, some s.c.id.ctxid, pending, 4, 4, 1, true⟩)]
    mapData := [⟨0, 7, [0, 1, 2, 3], [1, 1, 1, 1], []⟩] }
def mapsFull (s : State) : State :=
  s.withCore { s.core with maps := (List.range 8).map (fun i => (i, ⟨7, some 9, false, 4, 4, 1, true⟩)) }
theorem witness_TokenMergeResults_match :
    let fresh := mapping false (mergeBytes 0 4 1) up
    let s := mapping false (mergeBytes 7 4 1) up
    guardOn 0 s = true ∧ canRead .zero s = true ∧ recordOf .pair true fresh = some (mergeOf 0 4 1, 0x100)
      ∧ recordOf .pair false (mapping false (mergeBytes 0 1 0) up) = some (mergeOf 0 1 0, 0x100)
      ∧ freeMapSlot (mapsFull fresh) = none ∧ okay (engineReady false s) = true
      ∧ s.c.tmq.length < 8 ∧ awaits s.c (.reg 1) = false ∧ recordOf .pair true s = some (mergeOf 7 4 1, 0x100)
      ∧ mapOf 7 s = some 0 ∧ mapOf 8 s = none ∧ (mapSlot s.core 0).pending = false ∧ (mapSlot s.core 0).nc = 4
      ∧ (mapSlot (mapping true [] up).core 0).pending = true := by decide +kernel
theorem witness_TokenMergeResults_merge :
    let s := mapping true (mergeBytes 0 4 0) up
    let ready := mapping false (mergeBytes 0 4 0) up
    guardOn 0 s = true ∧ canRead2 (.reg 1) .zero s = true ∧ recordOf (.merge true) true s = some (mergeOf 0 4 0, 0x100)
      ∧ recordOf (.merge false) true s = some (mergeOf 0 4 0, 0x100) ∧ recordOf .restore true s = some (mergeOf 0 4 0, 0x100)
      ∧ mapOf 7 s = some 0 ∧ mapOf 0 s = none ∧ (mapSlot s.core 0).pending = true
      ∧ destRows (.merge true) 7 4 s = 3 ∧ destRows (.merge true) 8 4 s = 2 ∧ destRows .restore 8 4 s = 4
      ∧ okay (rowsAt 0x300000 4 4 2 true s) = false ∧ okay (rowsAt 0x200 4 4 (4 - 1) true s) = true ∧ okay (rowsAt 0 0 (4 * (4 - 1)) 1 true s) = true
      ∧ okay (rowsAt 0x200 4 4 4 true ready) = true ∧ (mapSlot ready.core 0).pending = false ∧ okay (engineReady false s) = true
      ∧ (1 : Nat) % 64 ≠ 0 ∧ okay (rowsAt 0 0 (imageBytes 4 4) 1 true ready) = true ∧ canRead (.reg 1) s = true := by decide +kernel
theorem witness_TokenMergeResults_fill :
    let image := spillImage [0, 0, 1] [2, 1]
    let s := mapping false image up
    let bad := spillImage [0, 0, 1] [1, 1]
    s.c.tmq = [] ∧ okay (record 64 0 64 s) = true ∧ imageHead [] = none ∧ imageHead image = some (3, 2)
      ∧ okay (record 64 0 (imageBytes 3 2) s) = true ∧ imageMap bad = none ∧ imageMap image = some ([0, 0, 1], [2, 1])
      ∧ freeMapSlot (mapsFull s) = none ∧ okay (imageAt 0 64 s) = true ∧ okay (imageAt 0 (imageBytes 3 2) s) = true
      ∧ (atStart s).c.tmq = [] := by decide +kernel
/-- Which slots the other cores of the grove hold is a free value: where they hold none, slot 1 is the lowest FREE one. -/
theorem witness_TokenMergeResults_free (h : ∀ i, Config.slotHeld 0 i = false) : freeMapSlot (mapping false [] up) = some 1 := by
  have ht : (mapping false [] up).tick = 0 := by decide +kernel
  have hf : (fun i => (mapSlot (mapping false [] up).core i).owner.isNone && !Config.slotHeld (mapping false [] up).tick i)
      = fun i => (mapSlot (mapping false [] up).core i).owner.isNone := by
    funext i
    rw [ht, h i]
    exact Bool.and_true _
  unfold freeMapSlot
  rw [hf]
  decide +kernel
def merging (k : TmKind) (gen : W16) (s : State) : State :=
  let s := mapping false [] s
  s.withC { s.c with tmq := [⟨0, 0, gen, k⟩] }
theorem witness_TokenMergeWork :
    let s := merging (.spill 0) 7 up
    s.c.tmq = [⟨0, 0, 7, .spill 0⟩] ∧ mapData s.core 0 7 = some ⟨0, 7, [0, 1, 2, 3], [1, 1, 1, 1], []⟩ ∧ mapData s.core 0 8 = none
      ∧ up.c.tmq = [] ∧ up.c2.tmq = [] ∧ (∀ e' ∈ [(0, 1)], e'.1 = 0 → e' = (0, 1)) ∧ (∀ e' ∈ [(0, 1)], e'.1 ≠ 1)
      ∧ [0, 0, 1].length = [1, 1, 1].length ∧ (∀ p ∈ [0, 0, 1], p < 2)
      ∧ vGuard 0 up ≠ 0 ∧ vtOf (0 : W64) = .fp32 ∧ vtOf (1 : W64) ≠ .fp32 ∧ canReadV (.reg 1) up = true
      ∧ awaitsV up.c (.reg 1) = false ∧ isSto (0 : W64) = false := by decide +kernel
/-- A matching of four tokens that keeps one edge merges the two of largest score: 0 and 1 have the same direction. -/
theorem test_merge_pos : mergePos [(0, 1)] 4 = [0, 0, 1, 2] := by decide
theorem test_merge_sizes : mergeSizes [0, 0, 1, 2] [1, 1, 1, 1] 3 = [2, 1, 1] := by decide

/-! The dispatchers. -/

/-- An environment at 0x30000 whose PTROOT maps all of memory, with one save area, and a launch word at 0x40000 that names one
record, at 0x50000. -/
def launching (s : State) : State :=
  s.withPkg { s.pkg with
    mem := putCells [] (cellsAt 0x20000 (bytesOf 8 0x12F) ++ cellsAt 0x30000 (bytesOf 8 0x20001) ++ cellsAt 0x30058 (bytesOf 8 1)
      ++ cellsAt 0x40000 (bytesOf 8 0x1000000050000))
    disp := s.pkg.disp.set 0 { s.disp 0 with lwaddr := (s.disp 0).lwaddr.set 0 0x40001, lwenv := (s.disp 0).lwenv.set 0 0x30000 } }
def oneTask : Task := { taskOf [] 0x30000 (.slot 0) [] with ready := some 0 }
def queued (s : State) : State := let s := launching s; s.withDisp 0 { s.disp 0 with queue := [oneTask] }
def placesAt (s : State) (k : Claim) : Option (List (BitVec 8) × Bool) := placeFor s 0 k
def savedIs (gsize : BitVec 2) (spilled : Bool) : Saved :=
  { task := oneTask, id := { Ident.none with gsize := gsize, savebase := 0x60000 }, regions := [], core := 0, fault := none
    since := 0, bound := false, slot := false, roBound := 0, late := [], cpDone := Vector.replicate 2 0, cpErr := Vector.replicate 2 0, words := [], inputs := [], refetch := [], reruns := 0, phseq := 0
    spilled := spilled, req := [], engCount := 0, mates := [] }
def savedWith (v : Saved) (s : State) : State := let s := launching s; s.withPkg { s.pkg with saved := [v] }
theorem witness_SchedulerResults :
    let s := launching up
    let t := queued up
    launchPa up.pkg (up.disp 0) 0 = none ∧ launchPa up.pkg (up.disp 1) 0 = none ∧ launchPa s.pkg (s.disp 0) 0 = some 0x40000
      ∧ ((s.disp 1).lwaddr[(0 : Fin 16)]).getLsbD 0 = false ∧ getNum s.pkg.mem 0x40000 8 / 2 ^ 48 = 1
      ∧ (s.disp 0).queue.length < 65536 ∧ malformed false (getBytes s.pkg.mem 0x50000 64) = false
      ∧ ({ oneTask with ready := none } : Task).ready = none
      ∧ (claimOrder t 0).find? (fun k => placeable t 0 k.1) = some (.task 0, 0) ∧ placesAt t (.task 0) = some ([1], false)
      ∧ (t.disp 0).queue[0]? = some oneTask ∧ freeArea t.pkg oneTask.env = some 0 ∧ oneTask.twin = false
      ∧ up.c.saving = false ∧ up.c2.saving = false ∧ ({ up.c with saving := true } : Ctx).saving = true ∧ up.core.emerg = []
      ∧ up.pkg.saved.find? (fun v => v.spilled && v.fault.isNone) = none
      ∧ (savedWith (savedIs 0 true) up).pkg.saved.find? (fun v => v.spilled && v.fault.isNone) = some (savedIs 0 true)
      ∧ (envRange s.pkg 0x30000 0x60000 1).2 = none
      ∧ findIdx (fun v => v.fault.isNone && !v.spilled && v.id.gsize ≠ 0) up.pkg.saved = none
      ∧ (s.disp 0).work[(0 : Fin 16)] = none ∧ (s.disp 0).seen[(0 : Fin 16)] = false
      ∧ (let d := { s.disp 0 with seen := (s.disp 0).seen.set 0 true }; (s.withDisp 0 d).disp 0 = d) := by
  decide +kernel
theorem witness_SchedulerResults_launch :
    let s := launching up
    (match dispPa s.pkg (envReg s.pkg 0x30000 0) 0x50000 with | .ok r => r = 0x50000 | .error _ => false) = true
      ∧ depsOf s.pkg 0 [] = .ok [] := ⟨by decide +kernel, rfl⟩
/-- The environment's tables map the launch word's page alone. -/
def unmappedLaunch (s : State) : State :=
  let s := launching s
  let s := s.withDisp 0 { s.disp 0 with work := (s.disp 0).work.set 0 (some (1, 0x50000)) }
  s.withPkg { s.pkg with
    mem := putCells s.pkg.mem (cellsAt 0x20000 (bytesOf 8 0x80001) ++ cellsAt 0x80000 (bytesOf 8 0x90001)
      ++ cellsAt 0x90000 (bytesOf 8 0xA0001) ++ cellsAt 0xA0020 (bytesOf 8 0x4002F)) }
theorem witness_SchedulerResults_wait :
    let s := unmappedLaunch up
    (launchFault s.pkg (s.disp 0) 0).map (·.va) = some 0x50000
      ∧ (nextClient s).map Client.fault = launchFault s.pkg (s.disp 0) 0 ∧ ((s.disp 1).lwaddr[(0 : Fin 16)]).getLsbD 0 = false := by decide +kernel
theorem witness_SchedulerResults_gang :
    let v := savedIs 1 false
    let s := savedWith v up
    let line (bits : List (BitVec 8)) (mates : List W32) : RejoinLine := ⟨[0, 1], bits, none, mates⟩
    let apart := up.withPkg { up.pkg with rejoin := some (line [0, 1] [7]) }
    let apart := apart.withC { apart.c with id := { apart.c.id with dec := true }, waits := [.rejoin] }
    findIdx (fun v => v.fault.isNone && !v.spilled && v.id.gsize ≠ 0) s.pkg.saved = some 0 ∧ s.pkg.saved[0]? = some v
      ∧ (readImage s.pkg v).isSome = true ∧ readImage up.pkg v = none
      ∧ (gangSets 2 0).head? = some [0, 1] ∧ gangFits (s.withC Ctx.empty) 0 (.saved 0) v [0, 1] = true ∧ gangFits s 0 (.saved 0) v [0, 1] = false
      ∧ apart.pkg.rejoin = some (line [0, 1] [7]) ∧ apart.c.id.dec = true ∧ apart.c.waits.contains .rejoin = true
      ∧ (line [1] []).bits.contains Config.coreId = false ∧ (line [0, 1] []).bits.contains Config.coreId = true
      ∧ stillThere apart 7 = false ∧ up.pkg.rejoin = none := by
  decide +kernel
def streamIs (st : StreamState) (s : State) : State :=
  s.withPkg { s.pkg with devtime := 0x10000, streams := [(5, ⟨st, 0, 0x20000, 256, [0x70000, 0x80000], 0x70000, 3, 0, 0, false⟩)] }
theorem witness_SchedulerResults_streams :
    let e (st : StreamState) : Stream := ⟨st, 0, 0x20000, 256, [0x70000, 0x80000], 0x70000, 3, 0, 0, false⟩
    look up.pkg.streams 5 = none ∧ look (streamIs .resident up).pkg.streams 5 = some (e .resident) ∧ (e .resident).idle ≠ 0
      ∧ (e .resident).idle.toNat * 1000 ≤ ((streamIs .resident up).pkg.devtime - (e .resident).last).toNat
      ∧ (e .evicting).state = .evicting ∧ (e .evicting).core = Config.coreId ∧ (e .loading).state = .loading
      ∧ (e .resident).state ≠ .evicting := by decide +kernel

/-! Further clauses. -/

theorem witness_formats :
    vtOf (fmtIs 3 up).c.a.fmt ∉ classF ++ classI ∧ vtOf (fmtIs 3 up).c.a.fmt ∉ classE ∧ vtOf up.c.a.fmt ∉ classI
      ∧ vtOf (fmtIs 9 up).c.a.fmt ∉ classF ++ class8 ∧ vtOf (fmtIs 3 up).c.a.fmt ∉ [Fmt.int8, .uint8, .int16]
      ∧ widthOf (vtOf up.c.a.fmt) ∉ [8, 16] ∧ isSto (1024 : W64) = false ∧ vGuard 0 up ≠ 0 := by decide
/-- A vector access that leaves its node, one that is not aligned, and one beyond PM. -/
theorem witness_VectorMemoryResults_traps :
    let s := mapped up
    let at_ (ea : W64) (i : Nat) : W64 := ea + BitVec.ofNat 64 (4 * i)
    (nodeOf (at_ 0xFFFFFFFFFFFC 1) ≠ nodeOf 0xFFFFFFFFFFFC) ∧ addressOk true (at_ 0 63) s = true ∧ (2 : W64).toNat % 4 ≠ 0
      ∧ spaceOf (at_ 0x1000000000000000 0) = 1 ∧ fieldOf s.c.a.pmsize 47 16 * 2 ^ 16 < (at_ 0x10000 0).toNat + 4
      ∧ 128 ≤ remoteItems (List.replicate 128 (.remote 1 0 [0])) ∧ 1 ∈ lanesOf (vGuard 0 s) := by decide +kernel
/-- A byte of AS is poisoned. -/
def spoilt (s : State) : State := s.withCore { s.core with bad := [(false, 0x100)] }
theorem witness_TypedBufferResults_poison :
    (spoilt up).core.bad.find? (fun b => b.1 = false && (span 0x100 4).contains b.2) = some (false, 0x100)
      ∧ ¬ sound false (span 0x100 4) (spoilt up) ∧ sound false (span 0x100 4) up := by
  refine ⟨by decide, fun h => h 0x100 (by decide) (by decide), fun a _ h => absurd h (by simp [up, State.reset, Core.zero])⟩
theorem witness_GatherScatterResults_traps :
    let s := tensored (regioned (mapped up))
    (tensorOf (tensorImage 0x00201 0 0)).writable = false ∧ placeAddressOk s (.va 0x0001000000000000) = false
      ∧ placeAligned 4 (.va 2) = false ∧ placeAligned 4 (.va 4) = true ∧ placeAddressOk s (.va 4) = true := by decide +kernel
/-- The words of an L2 sector wait for their channel; they have been read, and the first was delivered poisoned. -/
def wordWaits (s : State) : State := s.withHbm { s.pkg.hbm with waiting := [(0, 0), (1, 0)] }
def wordLost (s : State) : State := s.withHbm { s.pkg.hbm with fetched := [0, 1], poison := [0] }
theorem witness_DataArrivalResults_hbm :
    up.pkg.hbm.quiet = true ∧ up.pkg.hbm.fetched = [] ∧ hbmReady (fetchHbm [0, 1] (wordWaits up)).pkg.hbm [0, 1] = false
      ∧ hbmReady (fetchHbm [0, 1] (wordLost up)).pkg.hbm [0, 1] = true
      ∧ [0, 1].find? (poisoned (fetchHbm [0, 1] (wordLost up)).pkg) = some 0 := by decide
/-- A commit of a phase that has buffered two stores, at a scope, with an ending. -/
def committing (scope : Scope) (e : Ending) (l : List Cells) (s : State) : State :=
  s.withC { s.c with commit := some ⟨scope, e, false, false, [], 0⟩, buf := l.map .store }
/-- A store of the context is on its way to node 0x100. -/
def storing (s : State) : State :=
  s.withPkg { s.pkg with fab := { s.pkg.fab with paths := [(0x100, ⟨1, [(packetTo 1 0x100, 0)], false, 0, []⟩)] } }
theorem witness_CommitCompletes_stores :
    let l : List Cells := [[(8, 1)], [(8, 2), (9, 3)]]
    let s := committing .torus .halt l up
    s.c.buf = l.map .store ∧ backWriters s = false ∧ remoteUnpublished s = false ∧ unsent s = false
      ∧ (∀ w ∈ l, waitsQueue s (.store w) = false) ∧ remoteUnpublished (committing .pool .texit [] (storing up)) = true
      ∧ Memory.wf s.pkg.mem = true := by decide
theorem witness_TrapEntryResults_abort :
    Cause.doubleTrap ∈ [Cause.uncontained, .uncorrectable, .doubleTrap] ∧ up.c.id.prt = false ∧ up.c.a.inh = false := by decide
/-- What cp.go checks of the command that copies tensor 1 to tensor 2, with a completion word of an offset. -/
def goChecks (dst src : Tensor) (inp cw : Bool) (x : W64) (s : State) : Option (Bool × Cause) :=
  (copyGoChecks s.c.a.shadow[(0 : Fin 2)] 0 inp cw x dst src s).find? (fun k => !k.1)
theorem witness_CopyGoResults_checks :
    let s := copying up
    let src := tensorOf (tensorImage 0x10201 0 0)
    let dst := tensorOf (tensorImage 0x10203 0 0x20000)
    let boxed := s.withA { s.c.a with shadow := s.c.a.shadow.set 0 { s.c.a.shadow[(0 : Fin 2)] with bx := Vector.replicate 4 99 } }
    let full := s.withC { s.c with buf := List.replicate 16 (.copy ⟨0, 0, false, false, false, none, s.c.a.shadow[(0 : Fin 2)], src, dst, 0, 0,
      false, ownerOf s⟩) }
    goChecks dst src false false 0 s = none ∧ goChecks (tensorOf (tensorImage 0x10200 0 0)) src false false 0 s = some (false, .tensor)
      ∧ goChecks dst src false true 2 s = some (false, .misalign) ∧ goChecks dst src false true 0x30000 s = some (false, .bounds)
      ∧ goChecks dst src false false 0 boxed = some (false, .bounds)
      ∧ goChecks (tensorOf (tensorImage 0x10203 0x40000 0x100)) src false false 0 s = some (false, .bounds)
      ∧ goChecks src dst false false 0 full = some (false, .bufferFull) := by decide +kernel
theorem witness_CopyEventResults_hbm :
    let s := after copyGo (copying up)
    s.pkg.hbm.quiet = true ∧ s.pkg.hbm.fetched = []
      ∧ (nextXfer s 0).any (fun x =>
          let l := readPas (runXfer x s).1
          let t := s.withHbm { s.pkg.hbm with waiting := (hbmWords l).map (fun w => (w, 0)) }
          decide (l ≠ []) && !(fetchXfer x t).2) = true := by decide +kernel
/-- The sequencer's oldest operation is mzero of the tile at 0, or a routine's operation stands on a bad tile. -/
theorem witness_MatrixPerformResults_bytes :
    let s := withOp (.mzero 0) (tiled up)
    let m : Mode := (modeOf s.c.a.fmt).getD ⟨.plain .fp32, .plain .fp32, .fp32, 0, 0⟩
    s.c.routine = none ∧ Memory.wf s.core.cb = true ∧ Memory.wf s.core.as = true ∧ modeOf s.c.a.fmt = some m
      ∧ mxPoison (.mzero 0) s.c.a.fmt s.c.a.asd s = none ∧ (regionAt s.c.regions true 0 m.tile).isSome = true
      ∧ (regionAt s.c.regions false (0 + 0 * (32 * 8)) (m.tm * widthOf .fp32 / 8)).isSome = true
      ∧ isTrap (checkMx (.mzero 1) s.c.a.fmt s.c.a.asd s) .misalign = true
      ∧ mxPoison (.mmac 0 0 1 true) s.c.a.fmt s.c.a.asd ((tiled up).withCore { up.core with bad := [(false, 0)] }) = some 0 := by decide +kernel
theorem witness_OrderedPathResults_home :
    let s := homed up
    homeNak (homeBytes .read 0 8 up) = true ∧ homePends (homeBytes .read 0 8 (migratingPage s)) = true
      ∧ homeOk (homeBytes .read 0 2 s) = true ∧ hbmReady (fetchHbm [0, 1] (wordWaits s)).pkg.hbm [0, 1] = false
      ∧ (storersTo 0x100 (storing up)).contains (storing up).c.id.ctxid = true ∧ up.c.live = true
      ∧ ((pathTo (storing up).pkg.fab 0x100).unacked.filter (fun x => decide (tmoNs (storing up).pkg.fab
        ≤ age ((storing up).withPkg { (storing up).pkg with devtime := 1000000 }) x.2))) ≠ [] := by decide +kernel
theorem witness_ConnectionResults_checks :
    let s := connIs .closed [] (regioned up)
    let broken := connIs .broken [message (some 0)] up
    nodeInExt s.pkg.fab.ext 0x200 = false ∧ (1 : Nat) % 4 ≠ 0 ∧ regionAt s.c.regions false 0x30000 4 = none
      ∧ ((connOf broken 3).out.filter (fun m => m.sent.isSome)).length = 1 := by decide
theorem witness_MessageResults_traps :
    let s := connIs .opened [] (regioned (mapped up))
    (BitVec.extractLsb' 48 12 (0x0001000000000000 : W64)).toNat ≠ 0 ∧ ¬ ((connOf s 2).state = .opened ∨ (connOf s 2).state = .opening)
      ∧ (0x80 : Nat) % 256 ≠ 0 ∧ regionAt s.c.regions false 0x30000 256 = none ∧ 2 ^ 48 < (2 ^ 48 - 256) + 256 * 2
      ∧ 128 < remoteItems (List.replicate 128 (.remote 1 0 [0])) + 1 ∧ engineLoad s 0 < 16
      ∧ sourceHeld s 0 (2 ^ 64) 0 256 = false := by decide +kernel
theorem witness_PageServiceResults_frames :
    let s := frozenOn 0x200 up
    pteHB 0x30121 = false ∧ pteHB 0x400 = true ∧ rangeGone s.pkg.hbm 0x30000 0x10000 = false
      ∧ rangeGone { s.pkg.hbm with retiredPc := [0] } 0x30000 0x10000 = true ∧ rangeFree s 0x50000000 0x10000 = true
      ∧ rangeFree s 0x50000001 0x10000 = false ∧ (severedFromHost s).pkg.hostUp = false
      ∧ (mapPaged { stuck with level := 3 } 0x70000 s).isSome = true
      ∧ (0x80000 : Nat) % 2 ^ 16 = 0 ∧ paExists 0x80000 = true ∧ 0x80000 + 2 ^ 16 ≤ 0x90000 := by decide +kernel
/-- Lane 5 of stack 0 has failed parity twice within the second. -/
def twiceRetried (s : State) : State := s.withHbm { s.pkg.hbm with retries := [(0, 5, 0), (0, 5, 0)] }
theorem witness_HbmTransferResults_retries :
    let x (l : List (List Nat)) : HbmXfer := ⟨0x40, l, [], true⟩
    let lanes (l : List (List Nat)) (h : Hbm) (i : Nat) : List Nat := (l.getD i []).filter (fun k => k / 64 = 0 && laneInUse h 0 k)
    let h := strike (x [[5], [5]]) (spareless up).pkg.hbm
    (∀ i, i < 2 → lanes [[5], [5]] h i ≠ []) ∧ lanes [[5], [5]] h 2 = [] ∧ spareFree h 0 0 = false ∧ chanSwaps h 0 0 = false
      ∧ spareFree (strike (x [[5]]) (twiceRetried up).pkg.hbm) 0 0 = true
      ∧ 2 ≤ ((strike (x [[5]]) (twiceRetried up).pkg.hbm).retries.filter (fun e => within1s e.2.2 up.pkg.devtime && e.1 = 0 && e.2.1 = 5)).length
      ∧ (∀ i, i < 5 → lanes (List.replicate 5 [5]) h i ≠ []) ∧ (130 : Nat) ∉ [7].filter (fun k => k < 128)
      ∧ look up.pkg.hbm.parity 0 = none ∧ look up.pkg.hbm.cells 0 = none := by decide
/-- A configuration of four bytes that the firmware key has signed raises the policies; another is refused. -/
theorem witness_BootAndAlarmResults_policies (sig : BitVec 512) :
    loadPolicies ⟨[0], [], sig⟩ Ksu.zero = none ∧ raised .log .halt = .halt ∧ raised .halt .log = .halt := by
  refine ⟨?_, by decide, by decide⟩
  simp only [loadPolicies, List.length_singleton, show (1 : Nat) ≠ 4 by decide, decide_false, Bool.and_false, Bool.false_and]
  rfl
theorem witness_ChannelResults_source :
    let s := channeled 2 1 3 up
    okay (soundBuf false (sourceSlot (channelBytes 2 1) 0) s) = true ∧ mayRelease 2 0 (atStart s) = true
      ∧ mayRelease 3 0 (storing s) = false := by decide +kernel

/-- A query whose holders are this package and its left child, whose partial came first; a holder of no fold asks nothing. -/
theorem witness_QueryResults_early :
    let q : Query := { queryFrom 0x100 5 with holders := [0x100, 0] }
    let f : Fold := ⟨q, q.arr, 1, q.holders, []⟩
    let r : HolderReply := ⟨emptyPartial 64, [], false⟩
    childOf f 0 = some 0 ∧ (openFold q (up.withAttn { up.pkg.attn with early := [(q.qid, q.from_, 0, r)] })).1.vals = [(0, r)]
      ∧ (asked (some r) up).pkg.attn.asks.any (fun a => a.qid = 7 && a.root = 0) = true ∧ (asked none up).pkg.attn.folds = [] := by
  decide +kernel
/-- A rebalance of the sequence gathers since before the group, or since a slot of it. -/
theorem witness_PositionMapResults_follows :
    let s := attending sequence [] [] up
    let begun := { gathered s with grp := { s.grp with start := some ⟨s.c, s.core, s.pkg⟩ } }
    gathers (atStart (gathered s)) 1 = true ∧ gathers (atStart s) 1 = false ∧ s.pkg.attn.queue = []
      ∧ okay (attnIdle 1 (gathered s)) = false ∧ okay (attnIdle 1 begun) = true := by decide +kernel
theorem witness_TokenMergeWork_performs :
    let k : TmKind := .pair 0x100 4 1 .fp32 4 1
    let s := merging k 7 up
    let d : MapData := ⟨0, 7, [0, 1, 2, 3], [1, 1, 1, 1], []⟩
    tmPoison k d s = none ∧ tmPoison k d (s.withCore { s.core with bad := [(false, 0x104)] }) = some 0x104
      ∧ (mapSlot s.core 0).gen = 7 ∧ (mapSlot s.core 0).owner.isSome = true ∧ Memory.wf s.core.as = true
      ∧ rowsMeet 0x100 4 4 0x200 4 3 4 = false ∧ rowsMeet 0x100 4 4 0x108 4 3 4 = true := by decide +kernel
theorem witness_SchedulerResults_gangPlace :
    let v := savedIs 1 false
    let s := (savedWith v up).withC Ctx.empty
    (claimOrder s 0).find? (fun k => (gangOf s k.1).isSome && placeable s 0 k.1) = some (.saved 0, 0)
      ∧ gangPlace s 0 (.saved 0) v = some [0, 1] ∧ (claimOrder up 0).find? (fun k => (gangOf up k.1).isSome && placeable up 0 k.1) = none := by
  decide +kernel

/-! The machine. -/

theorem witness_DecodeOfEncode : (Instr.add 2 (.reg 3) (.reg 1) .lit).wf = true ∧ isEvent (.add 2 (.reg 3) (.reg 1) .lit) = false := by
  decide
theorem witness_EncodeOfDecode : decodeSlot 0x80083069 = .ok (.instr (.add 2 (.reg 3) (.reg 1) .lit)) := by decide
theorem witness_ReservedWordsRefused :
    (bits 0x60000000 28 3).toNat = 6 ∧ (bits 0x70000001 28 3).toNat = 7 ∧ bits 0x70000001 0 28 ≠ 0
      ∧ (bits 0x50000000 28 3).toNat = 5 ∧ (bits 0x0FFFFFFF 28 3).toNat = 0 ∧ (opOf 0x0FFFFFFF).toNat = 0x3F := by decide
theorem witness_GuardOffHasNoEffect :
    uniformGuard (.add 3 (.reg 3) (.reg 1) .lit) = some 3 ∧ guardOn 3 (preds [(3, 0)] up) = false
      ∧ laneGuard (.vadd 3 false (.reg 1) (.reg 1) (.reg 1)) = some 3 ∧ vGuard 3 (preds [(3, 0)] up) = 0 := by decide
/-- A machine whose next step runs a slot alone in its group, and the machine in which the slot runs. -/
def stepping (i : Instr) : State := State.reset.withFetchWord 32 ((encode i).headD 0).toNat
/-- The words fetched at the pc, and the machine after it. -/
def fetched (s : State) : List W32 × State :=
  match fetchWords (atGroup s).c.a.pc 8 (atGroup s) with | .ok r => r | .error _ => ([], s)
def startsWell (s : State) : Bool :=
  okay (checkStart (atGroup s).c.a.pc (atGroup s)) && okay (fetchWords (atGroup s).c.a.pc 8 (atGroup s))
def inSlot (s : State) : State := slotState 0 (fetched s).1 s (fetched s).2
def fetchesOne (i : Instr) (s : State) : Bool :=
  startsWell s && offender (fetched s).1 = none && decodeMask (fetched s).1 = 0 && slotsFrom 0 (fetched s).1 = [(0, i)]
theorem witness_StepRunsDecodedSlot :
    let i : Instr := .sub 0 (.reg 1) (.reg 1) .one
    let s := stepping i
    issuesNext s ∧ fetchesOne i s = true
      ∧ (let n := after i (inSlot s)
        n.grp.trap = none ∧ n.grp.stall = none ∧ n.c.frozen = none ∧ n.c.live = true ∧ n.c2.live = false) := by
  refine ⟨by unfold issuesNext; decide, by decide +kernel, by decide +kernel⟩
/-- A slot that traps, and one that waits for its operand. -/
theorem witness_StepRunsDecodedSlot_stops :
    let i : Instr := .trap 0 .one
    let j : Instr := .mov 0 (.reg 2) (.reg 1)
    let waits (s : State) : State := s.withC { s.c with ops := waiting.c.ops }
    issuesNext (stepping i) ∧ fetchesOne i (stepping i) = true ∧ (after i (inSlot (stepping i))).grp.trap = some (.swtrap, 1)
      ∧ issuesNext (waits (stepping j)) ∧ fetchesOne j (waits (stepping j)) = true
      ∧ (after j (inSlot (waits (stepping j)))).grp.trap = none
      ∧ (after j (inSlot (waits (stepping j)))).grp.stall = some .data := by
  refine ⟨by unfold issuesNext; decide, by decide +kernel, by decide +kernel, by unfold issuesNext; decide, by decide +kernel, by decide +kernel,
    by decide +kernel⟩
theorem witness_StepKeepsMemoryCanonical : State.reset.canonical := by unfold State.canonical; decide

end Sys2Proof.Tests
end

/-! SUPPORT. The scalar instructions (R104 to R109): what a slot with two operands, with one, a compare and `bfi` answer once
their operands can be read, what the operations compute bit by bit, and the statements that these settle. -/

namespace Sys2Proof.Machine

/-! ## The shapes of a scalar slot

Each takes the meaning of the instruction as a hypothesis, which `rfl` proves for every instruction of the shape. -/

/-- A slot with two operands under a guard that is on writes its operation's value (R67, R104). -/
theorem exec_eq_wrote_of_alu2 {i : Instr} {f : W64 → W64 → W64} {l : Nat} {g : Fin 16} {d : Dst} {a b : Src} {s : State}
    {v : W64} (hi : exec i s = guarded g s (alu2 f l g d a b)) (hg : guardOn g s = true) (hr : canRead2 a b s = true)
    (hw : canWrite d (after2 a b s) = true) (hv : f (valueOf a s) (valueB a b s) = v) :
    exec i s = .next (wrote d v (taint2 a b s || predTaint s.c (guardReg g)) l (after2 a b s)) := by
  refine hi.trans (guarded_on hg ?_)
  simp only [alu2, srcSS_ok hr, bind, Except.bind, writeS_ok hw, after2_c, hv]

/-- A slot with one operand under a guard that is on writes its operation's value (R67). -/
theorem exec_eq_wrote_of_alu1 {i : Instr} {f : W64 → W64} {l : Nat} {g : Fin 16} {d : Dst} {a : Src} {s : State} {v : W64}
    (hi : exec i s = guarded g s (alu1 f l g d a)) (hg : guardOn g s = true) (hr : canRead a s = true)
    (hw : canWrite d (afterRead a s) = true) (hv : f (valueOf a s) = v) :
    exec i s = .next (wrote d v (taintOf a s || predTaint s.c (guardReg g)) l (afterRead a s)) := by
  refine hi.trans (guarded_on hg ?_)
  simp only [alu1, srcS_ok hr, bind, Except.bind, writeS_ok hw, afterRead_c, hv]

/-- A compare under a guard that is on schedules its condition for all 64 lanes, one group later (R107). -/
theorem exec_eq_sched_of_compare {i : Instr} {f : W64 → W64 → Bool} {g : Fin 16} {p : Reg} {a b : Src} {s : State}
    (hi : exec i s = guarded g s (compare f g p a b)) (hg : guardOn g s = true) (hr : canRead2 a b s = true) :
    exec i s = .next (sched (.p p (if f (valueOf a s) (valueB a b s) then BitVec.allOnes 64 else 0)
      (taint2 a b s || predTaint s.c (guardReg g))) 1 (after2 a b s)) := by
  refine hi.trans (guarded_on hg ?_)
  simp only [compare, srcSS_ok hr, bind, Except.bind, after2_c, writeP]

/-- Popping an operand's words leaves what the group found in its context. -/
@[simp] theorem atStart_after2_c (a b : Src) (s : State) : (atStart (after2 a b s)).c = (atStart s).c := by
  simp only [after2, atStart_afterRead_c]

/-- `bfi` reads its destination with its operands, and the old value's taint joins theirs (R95, R106). -/
theorem exec_bfi_eq_wrote {g : Fin 16} {r : Reg} {a b : Src} {s : State} (hg : guardOn g s = true)
    (hr : canRead2 a b s = true) (hd : awaits (atStart s).c (.reg r) = false) :
    exec (.bfi g r a b) s = .next (wrote (.reg r) (bitInsert s.c.a.s[r] (valueOf a s) (valueB a b s))
      (taint2 a b s || s.c.a.sTaint.getLsbD r || predTaint s.c (guardReg g)) 1 (after2 a b s)) := by
  have hold : srcReg r (after2 a b s) = .ok (s.c.a.s[r], s.c.a.sTaint.getLsbD r) := by
    simp [srcReg, hd]
  have hw : canWrite (.reg r) (after2 a b s) = true := by simp [canWrite, hd]
  change execBfi g r a b s = _
  refine guarded_on hg ?_
  simp only [srcSS_ok hr, hold, bind, Except.bind, writeReg, writeS_ok hw, after2_c]

/-- `sel` reads both operands and writes the one that the selector's uniform bit names (R108). -/
theorem exec_sel_eq_wrote {p : Fin 16} {d : Dst} {a b : Src} {s : State} (hr : canRead2 a b s = true)
    (hw : canWrite d (after2 a b s) = true) :
    exec (.sel p d a b) s = .next (wrote d (if predUni s.c (guardReg p) then valueOf a s else valueB a b s)
      (taint2 a b s || predTaint s.c (guardReg p)) 1 (after2 a b s)) := by
  change execSel p d a b s = _
  refine always_ok ?_
  simp only [srcSS_ok hr, bind, Except.bind, writeS_ok hw, after2_c]

/-! ## Values of the two-operand instructions (R104) -/

theorem mulHigh_eq (x y : W64) : mulHigh x y = BitVec.ofInt 64 (x.toInt * y.toInt / 2 ^ 64) := by
  simp only [mulHigh, Nat.cast_pow, Nat.cast_ofNat]

theorem addSat_eq (x y : W64) :
    addSat x y = BitVec.ofInt 64 (max (-(2 ^ 63)) (min (2 ^ 63 - 1) (x.toInt + y.toInt))) := by
  simp only [addSat, Nat.cast_pow, Nat.cast_ofNat]

theorem ite_slt {α : Type} (x y : W64) (u v : α) :
    (if x.slt y then u else v) = if x.toInt < y.toInt then u else v := by
  simp only [BitVec.slt_iff_toInt_lt]

theorem ite_ult {α : Type} (x y : W64) (u v : α) :
    (if x.ult y then u else v) = if x.toNat < y.toNat then u else v := by
  simp only [BitVec.ult_iff_toNat_lt]

/-- Settles O1: every two-operand instruction is one `alu2` slot, and its operation has the value R104 gives. -/
theorem scalarArithmeticResults : Obligations.ScalarArithmeticResults := by
  intro g d a b s hg hr hw x y k out
  have run {i : Instr} {f : W64 → W64 → W64} {l : Nat} {v : W64} (hi : exec i s = guarded g s (alu2 f l g d a b))
      (hv : f x y = v) : exec i s = out v l := exec_eq_wrote_of_alu2 hi hg hr hw hv
  exact ⟨run rfl rfl, run rfl rfl, run rfl rfl, run rfl (mulHigh_eq x y), run rfl rfl, run rfl rfl, run rfl rfl,
    run rfl rfl, run rfl rfl, run rfl rfl, run rfl rfl, run rfl rfl, run rfl rfl, run rfl rfl, run rfl rfl, run rfl rfl,
    run rfl rfl, run rfl (ite_slt x y x y), run rfl (ite_slt x y y x), run rfl (ite_ult x y x y),
    run rfl (ite_ult x y y x), run rfl (addSat_eq x y)⟩

/-! ## Compares (R107) -/

/-- The bit of a word that is set takes its value, whatever the other bits hold. -/
theorem getLsbD_setBit_same {n : Nat} (x : BitVec n) {i : Nat} (hi : i < n) (b : Bool) : (setBit x i b).getLsbD i = b := by
  cases b with
  | false => simp [setBit, hi]
  | true => simp [setBit, hi]

/-- A predicate other than p0, written whole, holds the lanes and their conjunction as its uniform bit (R93). -/
theorem applyEff_p_lanes_uni {p : Reg} (hp : p ≠ 0) (k : LaneMask) (t : Bool) (u : State) :
    (applyEff (.p p k t) u).c.a.p[p] = k ∧ (applyEff (.p p k t) u).c.a.pUni.getLsbD p = allLanes k := by
  have ha : (applyEff (.p p k t) u).c.a = writePred u.c.a p k t := rfl
  rw [ha, writePred, if_neg hp]
  exact ⟨by simp, getLsbD_setBit_same _ p.isLt _⟩

/-- All lanes hold one value c, so that their conjunction is c. -/
theorem allLanes_ite (c : Bool) : allLanes (if c then BitVec.allOnes 64 else 0) = c := by
  cases c <;> decide

/-- Settles O3: every compare is one `compare` slot, and a write of 64 equal lanes leaves their value in the uniform bit. -/
theorem scalarCompareResults : Obligations.ScalarCompareResults := by
  intro g p a b s
  refine ⟨fun hg => ?_, fun hg hr => ?_⟩
  · simp only [List.forall_mem_cons]
    exact ⟨guarded_off hg, guarded_off hg, guarded_off hg, guarded_off hg, guarded_off hg, guarded_off hg,
      List.forall_mem_nil _⟩
  intro x y lanes out
  refine ⟨?_, fun c t u hp => ?_⟩
  · have run {i : Instr} {f : W64 → W64 → Bool} {c : Bool} (hi : exec i s = guarded g s (compare f g p a b))
        (hc : f x y = c) : exec i s = out c := hc ▸ exec_eq_sched_of_compare hi hg hr
    exact ⟨run rfl rfl, run rfl rfl, run rfl BitVec.slt_eq_decide, run rfl BitVec.ult_eq_decide,
      run rfl BitVec.sle_eq_decide, run rfl BitVec.ule_eq_decide⟩
  · obtain ⟨hlanes, huni⟩ := applyEff_p_lanes_uni hp (lanes c) t u
    exact ⟨hlanes, huni.trans (allLanes_ite c)⟩

/-! ## Counts of bits (R105) -/

theorem popN_eq_countP (n x : Nat) : popN n x = (List.range n).countP (fun i => x.testBit i) := by
  induction n generalizing x with
  | zero => rfl
  | succ n ih =>
    have htail : (fun i => x.testBit i) ∘ Nat.succ = fun i => (x / 2).testBit i := funext (Nat.testBit_succ x)
    rw [popN, ih, List.range_succ_eq_map, List.countP_cons, List.countP_map, htail, Nat.testBit_zero]
    rcases Nat.mod_two_eq_zero_or_one x with h | h <;> simp [h, Nat.add_comm]

/-- `ctzN w x` counts the zero bits below the lowest set bit, up to w. -/
theorem ctzN_spec (w x : Nat) : ctzN w x ≤ w ∧ (∀ i, i < ctzN w x → x.testBit i = false)
    ∧ (ctzN w x < w → x.testBit (ctzN w x) = true) := by
  induction w generalizing x with
  | zero => simp [ctzN]
  | succ w ih =>
    by_cases hodd : x % 2 = 1
    · simp [ctzN, hodd, Nat.testBit_zero]
    · obtain ⟨hle, hzero, hone⟩ := ih (x / 2)
      have hstep : ctzN (w + 1) x = ctzN w (x / 2) + 1 := by rw [ctzN, if_neg hodd, Nat.add_comm]
      rw [hstep]
      refine ⟨Nat.succ_le_succ hle, fun i hi => ?_, fun hlt => ?_⟩
      · cases i with
        | zero => simp [Nat.testBit_zero, hodd]
        | succ i => exact (Nat.testBit_succ x i).trans (hzero i (Nat.lt_of_succ_lt_succ hi))
      · exact (Nat.testBit_succ x _).trans (hone (Nat.lt_of_succ_lt_succ hlt))

/-- `clzN w x` counts the zero bits above the highest set bit of a number of w bits. -/
theorem clzN_spec {w x : Nat} (hx : x < 2 ^ w) : clzN w x ≤ w ∧ (∀ i, i < clzN w x → x.testBit (w - 1 - i) = false)
    ∧ (clzN w x < w → x.testBit (w - 1 - clzN w x) = true) := by
  by_cases h0 : x = 0
  · simp [clzN, h0]
  · have htop : x.log2 < w := (Nat.log2_lt h0).2 hx
    have hclz : clzN w x = w - 1 - x.log2 := if_neg h0
    rw [hclz]
    refine ⟨by omega, fun i hi => ?_, fun _ => ?_⟩
    · have habove : x.log2 + 1 ≤ w - 1 - i := by omega
      exact Nat.testBit_lt_two_pow (Nat.lt_of_lt_of_le Nat.lt_log2_self (Nat.pow_le_pow_right (by decide) habove))
    · have hback : w - 1 - (w - 1 - x.log2) = x.log2 := by omega
      rw [hback]
      exact Nat.testBit_log2 h0

/-! ## Bit fields (R106) -/

/-- Reading the low n bits as two's complement is the value of an n-bit word. -/
theorem sextN_eq_toInt {n : Nat} (hn : 0 < n) (x : Nat) : sextN n x = (BitVec.ofNat n x).toInt := by
  have hpow : 2 ^ n = 2 * 2 ^ (n - 1) := by rw [← Nat.pow_succ', Nat.succ_eq_add_one, Nat.sub_add_cancel hn]
  rw [sextN, BitVec.toInt_eq_toNat_cond, BitVec.toNat_ofNat]
  split <;> split <;> omega

/-- Sign extension keeps the low n bits and repeats bit n − 1 above them. -/
theorem getLsbD_sext64 {n : Nat} (hn : 0 < n) (x : Nat) {i : Nat} (hi : i < 64) :
    (sext64 n x).getLsbD i = if i < n then x.testBit i else x.testBit (n - 1) := by
  have hext : sext64 n x = (BitVec.ofNat n x).signExtend 64 := by rw [sext64, sextN_eq_toInt hn]; rfl
  rw [hext, BitVec.getLsbD_signExtend, BitVec.msb_eq_getLsbD_last, BitVec.getLsbD_ofNat, BitVec.getLsbD_ofNat]
  split
  · simp [*]
  · simp [hi, hn]

/-- The position and the width of a field, as numbers. -/
theorem fieldPos_eq (y : W64) : fieldPos y = y.toNat % 64 := by simp [fieldPos, fieldOf, bitsOf]

theorem fieldWidth_eq (y : W64) : fieldWidth y = min (y.toNat / 64 % 128) (64 - y.toNat % 64) := by
  simp [fieldWidth, fieldPos_eq, fieldOf, bitsOf]

/-- `bfx` moves the field down and repeats its highest bit above it where the sign flag is set. -/
theorem getLsbD_bitExtract (x y : W64) {i : Nat} (hi : i < 64) :
    (bitExtract x y).getLsbD i = if i < fieldWidth y then x.getLsbD (fieldPos y + i)
      else (fieldSigned y && decide (0 < fieldWidth y) && x.getLsbD (fieldPos y + fieldWidth y - 1)) := by
  have hfield (j : Nat) : (x.toNat / 2 ^ fieldPos y % 2 ^ fieldWidth y).testBit j
      = (decide (j < fieldWidth y) && x.getLsbD (fieldPos y + j)) := by
    rw [Nat.testBit_mod_two_pow, Nat.testBit_div_two_pow, Nat.add_comm j, BitVec.testBit_toNat]
  rw [bitExtract]
  by_cases hw : fieldWidth y = 0
  · simp [hw]
  have hw' : 0 < fieldWidth y := Nat.pos_of_ne_zero hw
  have hlast : fieldPos y + (fieldWidth y - 1) = fieldPos y + fieldWidth y - 1 := (Nat.add_sub_assoc hw' _).symm
  cases hs : fieldSigned y with
  | true =>
    simp only [hw, if_false, if_true, getLsbD_sext64 hw' _ hi, hfield, hlast]
    split <;> simp [*]
  | false =>
    simp only [hw, if_false, Bool.false_eq_true, BitVec.getLsbD_ofNat, hfield, Bool.false_and]
    split <;> simp [*]

/-- The value with the bits under a mask replaced. -/
theorem getLsbD_mix {n : Nat} (m x y : BitVec n) (i : Nat) :
    (mix m x y).getLsbD i = if m.getLsbD i then y.getLsbD i else x.getLsbD i := by
  by_cases hi : i < n
  · simp only [mix, BitVec.getLsbD_or, BitVec.getLsbD_and, BitVec.getLsbD_not, hi]
    cases m.getLsbD i <;> simp
  · simp [mix, BitVec.getLsbD_of_ge _ _ (Nat.le_of_not_lt hi)]

/-- `bfi` replaces the field's bits of the old value and no others. -/
theorem getLsbD_bitInsert (old x y : W64) {i : Nat} (hi : i < 64) :
    (bitInsert old x y).getLsbD i = if fieldPos y ≤ i ∧ i < fieldPos y + fieldWidth y then x.getLsbD (i - fieldPos y)
      else old.getLsbD i := by
  have hmask : (BitVec.ofNat 64 ((2 ^ fieldWidth y - 1) * 2 ^ fieldPos y)).getLsbD i
      = decide (fieldPos y ≤ i ∧ i < fieldPos y + fieldWidth y) := by
    rw [BitVec.getLsbD_ofNat, Nat.testBit_mul_two_pow, Nat.testBit_two_pow_sub_one, Bool.eq_iff_iff]
    simp only [Bool.and_eq_true, decide_eq_true_eq]
    omega
  rw [bitInsert, getLsbD_mix, hmask]
  simp only [decide_eq_true_eq]
  split
  · next h =>
    simp only [BitVec.getLsbD_shiftLeft, hi, Nat.not_lt.mpr h.1, decide_true, decide_false, Bool.not_false,
      Bool.true_and]
  · rfl

/-- `sext` repeats the bit that its operand names above it. -/
theorem getLsbD_signFrom (x y : W64) {i : Nat} (hi : i < 64) :
    (signFrom x y).getLsbD i = if i ≤ shamt y then x.getLsbD i else x.getLsbD (shamt y) := by
  rw [signFrom, getLsbD_sext64 (Nat.add_one_pos _) _ hi]
  simp only [Nat.lt_add_one_iff, Nat.add_sub_cancel, BitVec.testBit_toNat]

/-! ## The statement -/

/-- Settles O2: each instruction is one slot of its shape, and its operation is the one described bit by bit above. -/
theorem scalarFieldResults : Obligations.ScalarFieldResults := by
  refine ⟨?_, ?_, fun p d a b s hr hw => exec_sel_eq_wrote hr hw⟩
  · intro g d a s hg hr hw x out
    have run {i : Instr} {f : W64 → W64} {v : W64} (hi : exec i s = guarded g s (alu1 f 1 g d a)) (hv : f x = v) :
        exec i s = out v := exec_eq_wrote_of_alu1 hi hg hr hw hv
    refine ⟨run rfl rfl, run rfl (congrArg _ (popN_eq_countP 64 x.toNat)), ⟨clzN 64 x.toNat, run rfl rfl, ?_⟩,
      ⟨ctzN 64 x.toNat, run rfl rfl, ?_⟩⟩
    · exact clzN_spec x.isLt
    · exact ctzN_spec 64 x.toNat
  · intro g d r a b s hg hr x y t p w k
    have hp : fieldPos y = p := fieldPos_eq y
    have hwidth : fieldWidth y = w := fieldWidth_eq y
    refine ⟨fun hw => ⟨⟨bitExtract x y, exec_eq_wrote_of_alu2 rfl hg hr hw rfl, fun i hi => ?_⟩,
      ⟨signFrom x y, exec_eq_wrote_of_alu2 rfl hg hr hw rfl, fun i hi => getLsbD_signFrom x y hi⟩⟩,
      fun hd => ⟨bitInsert s.c.a.s[r] x y, exec_bfi_eq_wrote hg hr hd, fun i hi => ?_⟩⟩
    · rw [← hp, ← hwidth]; exact getLsbD_bitExtract x y hi
    · rw [← hp, ← hwidth]; exact getLsbD_bitInsert _ x y hi

end Sys2Proof.Machine
